-- ==== Sys2Proof/Word.lean ====
section
/-! DEFINITION. The word types of the block: command, response, register and payload words are 32 bits
(spec 30_encoding.md R90), a frame-store byte is 8 bits (20_memory.md R62), a code is 4 bits (10_state.md R24)
and a level travels on a 5-bit bus (40_quantizer.md R120). -/

namespace Sys2Proof

/-- A word of the `cmd` or `rsp` stream, or a 32-bit register (R90, R50). -/
abbrev Word := BitVec 32

/-- A byte of the frame store (R41). -/
abbrev Byte := BitVec 8

/-- A code of the code table: bit k is the document's "bit k" (R24, R25). -/
abbrev Nibble := BitVec 4

/-- The level bus: 5 bits wide, so that the forbidden level 16 can be represented and rejected (R120, R142). -/
abbrev Level := BitVec 5

end Sys2Proof
end

