-- ==== Sys2Proof/Syntax.lean ====
section
/-! DEFINITION. The commands of the block: one constructor per row of spec/opcode_table.json (30_encoding.md R93),
each carrying the header fields, operand words and payload of R91 and R93 as decoded values. -/

namespace Sys2Proof

/-- A command packet, decoded (R90, R93). Lists hold payloads whose length R93 computes from the fields and from the
geometry; `Instr.wf` (WellFormed) says that they have that length. -/
inductive Instr where
  /-- NOP, opcode 0x00 (R240). -/
  | nop
  /-- SOFT_RESET, opcode 0x01 (R241). -/
  | softReset
  /-- READ_REG, opcode 0x02, operand word `reg` (R242). -/
  | readReg (reg : Word)
  /-- SET_LUT, opcode 0x10, payload the seventeen breakpoints (R131). -/
  | setLut (table : Vector Word 17)
  /-- QUANTIZE, opcode 0x11, payload one binary32 datum (R132). -/
  | quantize (v : Word)
  /-- SET_CODE, opcode 0x18, payload two words of eight nibbles (R143). -/
  | setCode (c0 c1 : Word)
  /-- CODE, opcode 0x19, header field `level` (R145). -/
  | code (level : Level)
  /-- PACK, opcode 0x20, header fields `clr` and `planes`, operand `dst`, payload the phase stream (R165, R67). -/
  | pack (clr : Bool) (planes : BitVec 8) (dst : Word) (phase : List Word)
  /-- SET_GEOMETRY, opcode 0x30, operands `n`, `m` (R181). -/
  | setGeometry (n m : Word)
  /-- RESIZE, opcode 0x31, operand `cap` (R183). -/
  | resize (cap : Word)
  /-- INSERT, opcode 0x32, header field `layout`, operands `offset`, `count`, payload the frames (R185). -/
  | insert (layout : BitVec 2) (offset count : Word) (frames : List Word)
  /-- SET_AT, opcode 0x33, operand `index`, payload one RGBA frame (R188). -/
  | setAt (index : Word) (frame : List Word)
  /-- GET, opcode 0x34, operand `index` (R189). -/
  | get (index : Word)
  /-- SET_ORDER, opcode 0x40, operand `len`, payload the entries (R201). -/
  | setOrder (len : Word) (entries : List Word)
  /-- START_SEQ, opcode 0x41, operand `n` (R206). -/
  | startSeq (n : Word)
  /-- START_LOOP, opcode 0x42 (R204). -/
  | startLoop
  /-- STOP_LOOP, opcode 0x43 (R205). -/
  | stopLoop
deriving DecidableEq, Repr

end Sys2Proof
end

