-- ==== Sys2Proof/WellFormed.lean ====
section
/-! DEFINITION. Well-formed command records: "the payload list has exactly the length rule R93 gives for the state the
command meets" (30_encoding.md R95). The fields need no check: their widths are their types (R91, R92). -/

namespace Sys2Proof

/-- Payload words of PACK: `planes·N·M` (R93). -/
def packWords (planes : BitVec 8) (n m : Nat) : Nat :=
  planes.toNat * n * m

/-- Payload words of INSERT: `count·3·N·M` for layout 0, `count·4·N·M` for layout 1, none for a reserved layout
(R93). -/
def insertWords (layout : BitVec 2) (count : Word) (n m : Nat) : Nat :=
  if layout = 0 then count.toNat * (3 * n * m)
  else if layout = 1 then count.toNat * (4 * n * m)
  else 0

/-- Words of one frame as an RGBA stream: `4·N·M` (R65, R93). -/
def frameWords (n m : Nat) : Nat :=
  4 * n * m

/-- A command record is well formed for the geometry `n`, `m` when its payload has the length of R93 (R95). -/
def Instr.wf (n m : Nat) : Instr → Bool
  | .pack _ planes _ phase => phase.length == packWords planes n m
  | .insert layout _ count frames => frames.length == insertWords layout count n m
  | .setAt _ frame => frame.length == frameWords n m
  | .setOrder len entries => entries.length == len.toNat
  | .nop => true
  | .softReset => true
  | .readReg _ => true
  | .setLut _ => true
  | .quantize _ => true
  | .setCode _ _ => true
  | .code _ => true
  | .setGeometry _ _ => true
  | .resize _ => true
  | .get _ => true
  | .startSeq _ => true
  | .startLoop => true
  | .stopLoop => true

end Sys2Proof
end

