-- ==== Sys2Proof/Decode.lean ====
section
/-! DEFINITION. Decoding a packet from the words of the `cmd` stream and encoding a command into words
(spec 30_encoding.md R90 to R97). -/

namespace Sys2Proof

/-- The seventeen operations of R93. -/
inductive Opcode where
  | nop | softReset | readReg | setLut | quantize | setCode | code | pack | setGeometry | resize | insert | setAt | get
  | setOrder | startSeq | startLoop | stopLoop
deriving DecidableEq, Repr

/-- The opcode map (R93): the value of header bits 31:24. -/
def Opcode.byte : Opcode → BitVec 8
  | .nop => 0x00#8
  | .softReset => 0x01#8
  | .readReg => 0x02#8
  | .setLut => 0x10#8
  | .quantize => 0x11#8
  | .setCode => 0x18#8
  | .code => 0x19#8
  | .pack => 0x20#8
  | .setGeometry => 0x30#8
  | .resize => 0x31#8
  | .insert => 0x32#8
  | .setAt => 0x33#8
  | .get => 0x34#8
  | .setOrder => 0x40#8
  | .startSeq => 0x41#8
  | .startLoop => 0x42#8
  | .stopLoop => 0x43#8

/-- All operations, in the order of R93's table. -/
def Opcode.all : List Opcode :=
  [.nop, .softReset, .readReg, .setLut, .quantize, .setCode, .code, .pack, .setGeometry, .resize, .insert, .setAt, .get,
    .setOrder, .startSeq, .startLoop, .stopLoop]

/-- The operation an opcode byte names, if it is one of the seventeen (R94 step 2). -/
def Opcode.ofByte (b : BitVec 8) : Option Opcode :=
  Opcode.all.find? fun op => op.byte == b

/-- How many operand words follow the header (R93). -/
def Opcode.operandCount : Opcode → Nat
  | .readReg | .pack | .resize | .setAt | .get | .setOrder | .startSeq => 1
  | .setGeometry | .insert => 2
  | .nop | .softReset | .setLut | .quantize | .setCode | .code | .startLoop | .stopLoop => 0

/-- Header bits 31:24 (R91). -/
def headerOpcode (h : Word) : BitVec 8 := h.extractLsb' 24 8

/-- `clr`, bit 8 of a PK header (R91). -/
def headerClr (h : Word) : Bool := h.getLsbD 8

/-- `planes`, bits 7:0 of a PK header (R91). -/
def headerPlanes (h : Word) : BitVec 8 := h.extractLsb' 0 8

/-- `level`, bits 4:0 of a CD header (R91). -/
def headerLevel (h : Word) : Level := h.extractLsb' 0 5

/-- `layout`, bits 1:0 of an IN header (R91). -/
def headerLayout (h : Word) : BitVec 2 := h.extractLsb' 0 2

/-- The lowest must-be-zero bit of the operation's header format: every header bit from here up to bit 23 must be zero
(R91: Z 23:0, PK 23:9, CD 23:5, IN 23:2). -/
def Opcode.firstReservedBit : Opcode → Nat
  | .pack => 9
  | .code => 5
  | .insert => 2
  | .nop | .softReset | .readReg | .setLut | .quantize | .setCode | .setGeometry | .resize | .setAt | .get | .setOrder
  | .startSeq | .startLoop | .stopLoop => 0

/-- The must-be-zero bits of the header are all zero (R91, R94 step 5). -/
def Opcode.reservedClear (op : Opcode) (h : Word) : Bool :=
  h.extractLsb' op.firstReservedBit (24 - op.firstReservedBit) == 0

/-- The payload length of R93, from the header `h`, the operand words `a`, `b` as given, and the geometry. -/
def Opcode.payloadWords (op : Opcode) (h a b : Word) (n m : Nat) : Nat :=
  match op with
  | .setLut => 17
  | .quantize => 1
  | .setCode => 2
  | .pack => packWords (headerPlanes h) n m
  | .insert => insertWords (headerLayout h) b n m
  | .setAt => frameWords n m
  | .setOrder => a.toNat
  | .nop | .softReset | .readReg | .code | .setGeometry | .resize | .get | .startSeq | .startLoop | .stopLoop => 0

/-- Take `k` operand words (0, 1 or 2): the operands, 0 where there is none, and the words after them. -/
def takeOperands : Nat → List Word → Option (Word × Word × List Word)
  | 0, ws => some (0, 0, ws)
  | 1, a :: ws => some (a, 0, ws)
  | 2, a :: b :: ws => some (a, b, ws)
  | _, _ => none

/-- Take `k` payload words, if the stream holds them: the payload and the words after it. -/
def takeWords (k : Nat) (ws : List Word) : Option (List Word × List Word) :=
  if k ≤ ws.length then some (ws.take k, ws.drop k) else none

/-- The command with this operation, header, operands and payload; none only where the payload is not as long as
`Opcode.payloadWords` says, which `takeWords` rules out. -/
def Opcode.build (op : Opcode) (h a b : Word) (payload : List Word) : Option Instr :=
  match op with
  | .nop => some .nop
  | .softReset => some .softReset
  | .readReg => some (.readReg a)
  | .setLut => if hl : payload.toArray.size = 17 then some (.setLut ⟨payload.toArray, hl⟩) else none
  | .quantize =>
    match payload with
    | [v] => some (.quantize v)
    | _ => none
  | .setCode =>
    match payload with
    | [c0, c1] => some (.setCode c0 c1)
    | _ => none
  | .code => some (.code (headerLevel h))
  | .pack => some (.pack (headerClr h) (headerPlanes h) a payload)
  | .setGeometry => some (.setGeometry a b)
  | .resize => some (.resize a)
  | .insert => some (.insert (headerLayout h) a b payload)
  | .setAt => some (.setAt a payload)
  | .get => some (.get a)
  | .setOrder => some (.setOrder a payload)
  | .startSeq => some (.startSeq a)
  | .startLoop => some .startLoop
  | .stopLoop => some .stopLoop

/-- Why a packet is illegal (R97); both answer ERR_OPCODE. -/
inductive Reject where
  /-- Header bits 31:24 are not in R93's map (R94 step 2). -/
  | unknownOpcode
  /-- A known opcode with a must-be-zero bit set (R94 step 5). -/
  | reservedBits
deriving DecidableEq, Repr

/-- What the words of the `cmd` stream begin with. -/
inductive Decoded where
  /-- No whole packet yet: the command agent waits (R95, U11). -/
  | incomplete
  /-- An illegal packet, consumed whole; `rest` follows it (R94, R97). -/
  | illegal (why : Reject) (rest : List Word)
  /-- A command; `rest` follows its packet. -/
  | packet (i : Instr) (rest : List Word)
deriving DecidableEq, Repr

/-- Decode the first packet of a stream under the geometry `n`, `m`, step by step as R94: header, operation, operand
words, payload length and payload, must-be-zero bits, command. -/
def decode (n m : Nat) : List Word → Decoded
  | [] => .incomplete
  | h :: ws =>
    match Opcode.ofByte (headerOpcode h) with
    | none => .illegal .unknownOpcode ws
    | some op =>
      match takeOperands op.operandCount ws with
      | none => .incomplete
      | some (a, b, ws') =>
        match takeWords (op.payloadWords h a b n m) ws' with
        | none => .incomplete
        | some (payload, rest) =>
          if op.reservedClear h then
            match op.build h a b payload with
            | some i => .packet i rest
            | none => .incomplete
          else .illegal .reservedBits rest

/-- A header with the operation's opcode in bits 31:24 and `fields` below (R91). -/
def header (op : Opcode) (fields : Word) : Word := op.byte.setWidth 32 <<< 24 ||| fields

/-- A Z header: no field, bits 23:0 zero (R91). -/
def headerZ (op : Opcode) : Word := header op 0

/-- A PK header: `clr` in bit 8, `planes` in bits 7:0 (R91, R165). -/
def headerPK (op : Opcode) (clr : Bool) (planes : BitVec 8) : Word :=
  header op ((BitVec.ofBool clr).setWidth 32 <<< 8 ||| planes.setWidth 32)

/-- A CD header: `level` in bits 4:0 (R91). -/
def headerCD (op : Opcode) (level : Level) : Word := header op (level.setWidth 32)

/-- An IN header: `layout` in bits 1:0 (R91). -/
def headerIN (op : Opcode) (layout : BitVec 2) : Word := header op (layout.setWidth 32)

/-- The packet of a command: header, operand words, payload (R90, R93). -/
def encode : Instr → List Word
  | .nop => [headerZ .nop]
  | .softReset => [headerZ .softReset]
  | .readReg reg => [headerZ .readReg, reg]
  | .setLut table => headerZ .setLut :: table.toList
  | .quantize v => [headerZ .quantize, v]
  | .setCode c0 c1 => [headerZ .setCode, c0, c1]
  | .code level => [headerCD .code level]
  | .pack clr planes dst phase => headerPK .pack clr planes :: dst :: phase
  | .setGeometry n m => [headerZ .setGeometry, n, m]
  | .resize cap => [headerZ .resize, cap]
  | .insert layout offset count frames => headerIN .insert layout :: offset :: count :: frames
  | .setAt index frame => headerZ .setAt :: index :: frame
  | .get index => [headerZ .get, index]
  | .setOrder len entries => headerZ .setOrder :: len :: entries
  | .startSeq n => [headerZ .startSeq, n]
  | .startLoop => [headerZ .startLoop]
  | .stopLoop => [headerZ .stopLoop]

/-- Word `k` of an instruction given as the number `w` of `nbits` bits, bit 0 the least significant bit of the first
word; bits from `nbits` up are 0. -/
def tableWord (nbits w k : Nat) : Word :=
  BitVec.ofNat 32 ((w % 2 ^ nbits) / 2 ^ (32 * k))

/-- How many words the packet with header `h` and the words `x`, `y` after it has under the geometry `n`, `m`
(R90, R94). -/
def packetLength (h x y : Word) (n m : Nat) : Nat :=
  match Opcode.ofByte (headerOpcode h) with
  | none => 1
  | some op => 1 + op.operandCount + op.payloadWords h x y n m

/-- The words of the packet given as the number `w` of `nbits` bits, operand and payload words above `nbits` being 0. -/
def tablePacket (nbits w n m : Nat) : List Word :=
  (List.range (packetLength (tableWord nbits w 0) (tableWord nbits w 1) (tableWord nbits w 2) n m)).map
    (tableWord nbits w)

/-- The command the decoder reads from the instruction whose bits are `w`, numbered as spec/opcode_table.json numbers
them, under the geometry of the reset state, 0 × 0 (entry 16). -/
def decodeTableWord (nbits w : Nat) : Option Instr :=
  match decode 0 0 (tablePacket nbits w 0 0) with
  | .packet i [] => some i
  | .packet _ (_ :: _) => none
  | .illegal _ _ => none
  | .incomplete => none

end Sys2Proof
end

