-- ==== Sys2Proof/Machine/Cells.lean ====
section
/-! DEFINITION. Sparse arrays in one canonical form: a list of (index, value) pairs, indices strictly rising, no pair
equal to what an unlisted index reads as. The frame store (20_memory.md R60(a)) and the order table (R60(b)) are two
of them; Machine/Ops.lean gives each its default. -/

namespace Sys2Proof.Machine

/-- What index `a` reads as; `d` gives the value of an unlisted index. -/
def Cells.read {w : Nat} (d : Nat → BitVec w) : List (Nat × BitVec w) → Nat → BitVec w
  | [], a => d a
  | (k, v) :: t, a => if a = k then v else if a < k then d a else Cells.read d t a

/-- Write `b` at index `a`, keeping the canonical form: writing the default removes the pair. -/
def Cells.write {w : Nat} (d : Nat → BitVec w) : List (Nat × BitVec w) → Nat → BitVec w → List (Nat × BitVec w)
  | [], a, b => if b = d a then [] else [(a, b)]
  | (k, v) :: t, a, b =>
    if a < k then
      if b = d a then (k, v) :: t else (a, b) :: (k, v) :: t
    else if a = k then
      if b = d a then t else (a, b) :: t
    else (k, v) :: Cells.write d t a b

/-- Write the list `bs` at the indices `a`, `a + 1`, … in rising order. -/
def Cells.writeList {w : Nat} (d : Nat → BitVec w) (m : List (Nat × BitVec w)) (a : Nat) :
    List (BitVec w) → List (Nat × BitVec w)
  | [] => m
  | b :: bs => Cells.writeList d (Cells.write d m a b) (a + 1) bs

/-- The values at the `k` indices from `a` on, in rising order. -/
def Cells.readList {w : Nat} (d : Nat → BitVec w) (m : List (Nat × BitVec w)) (a : Nat) : Nat → List (BitVec w)
  | 0 => []
  | k + 1 => Cells.read d m a :: Cells.readList d m (a + 1) k

/-- Every listed index is at least `lo`, and they rise strictly. -/
def Cells.rising {w : Nat} : Nat → List (Nat × BitVec w) → Bool
  | _, [] => true
  | lo, (k, _) :: t => decide (lo ≤ k) && Cells.rising (k + 1) t

/-- The canonical form: indices strictly rising, and no pair that an unlisted index would read as anyway. -/
def Cells.wf {w : Nat} (d : Nat → BitVec w) (m : List (Nat × BitVec w)) : Bool :=
  Cells.rising 0 m && m.all fun c => c.2 != d c.1

/-- Every listed index is below `size`. -/
def Cells.within {w : Nat} (size : Nat) (m : List (Nat × BitVec w)) : Bool :=
  m.all fun c => decide (c.1 < size)

end Sys2Proof.Machine
end

