-- ==== Sys2Proof/Config.lean ====
section
/-! DEFINITION. What an implementation fixes: the three size parameters of spec 00_scope.md R9, left open by the
spec (U9). They have no value here: each is an opaque constant whose type is R9's constraint and nothing more. -/

namespace Sys2Proof

/-- The parameters `N_MAX`, `M_MAX`, `CAP_MAX` that a model takes as arguments (R9). -/
structure Params where
  /-- `N_MAX`: the largest logical width the block accepts. -/
  nMax : Nat
  /-- `M_MAX`: the largest logical height the block accepts. -/
  mMax : Nat
  /-- `CAP_MAX`: the largest capacity the block accepts, and the number of entries of ORDER. -/
  capMax : Nat
deriving DecidableEq, Repr

/-- The constraints R9 puts on the parameters. -/
abbrev Params.ok (p : Params) : Prop :=
  (1 ≤ p.nMax ∧ p.nMax ≤ 2 ^ 15 - 1) ∧ (1 ≤ p.mMax ∧ p.mMax ≤ 2 ^ 15 - 1) ∧
    (1 ≤ p.capMax ∧ p.capMax ≤ 2 ^ 31 - 2)

/-- `N_MAX - 1` of the hardware at hand: any value R9 allows (entry 1, DESIGN CHOICE, safe). -/
opaque Config.nMaxLessOne : Fin 32767

/-- `M_MAX - 1` of the hardware at hand: any value R9 allows (entry 1, DESIGN CHOICE, safe). -/
opaque Config.mMaxLessOne : Fin 32767

/-- `CAP_MAX - 1` of the hardware at hand: any value R9 allows (entry 1, DESIGN CHOICE, safe). -/
opaque Config.capMaxLessOne : Fin 2147483646

/-- The parameters of the hardware at hand (R9, R52). -/
def Config.params : Params :=
  { nMax := Config.nMaxLessOne.val + 1
    mMax := Config.mMaxLessOne.val + 1
    capMax := Config.capMaxLessOne.val + 1 }

/-- The parameters of the hardware at hand meet R9's constraints, whatever they are. -/
theorem Config.params_ok : Config.params.ok := by
  have h1 := Config.nMaxLessOne.isLt
  have h2 := Config.mMaxLessOne.isLt
  have h3 := Config.capMaxLessOne.isLt
  refine ⟨⟨?_, ?_⟩, ⟨?_, ?_⟩, ?_, ?_⟩ <;> simp only [Config.params] <;> omega

end Sys2Proof
end

