-- ==== Sys2Proof/Machine/State.lean ====
section
/-! DEFINITION. Everything the block holds between events (spec 10_state.md R20), its outputs (R45 to R49), its input
and output streams (R50), and the reasons a step can stop. -/

namespace Sys2Proof.Machine

/-- `MODE` 0: Idle (R34). -/
abbrev modeIdle : BitVec 2 := 0#2

/-- `MODE` 1: Playing (R34). -/
abbrev modePlaying : BitVec 2 := 1#2

/-- `DISP_SLOT` while no frame has been presented yet (R40). -/
abbrev noSlotShown : Word := 0xFFFFFFFF#32

/-- What the environment does next, in the one total order of events (00_scope.md R11, 20_memory.md R72; entry 2). -/
inductive Event where
  /-- The words `arrived` come in on `cmd`, then the command agent has its turn: it performs the first packet waiting,
  if a whole one waits (R12, R94, R95). -/
  | command (arrived : List Word)
  /-- The external `tick` input fires: the tick agent performs one display tick (R208). -/
  | tick
  /-- The hardware reset input fires (R280). -/
  | rst
deriving DecidableEq, Repr

/-- Why a step stops with a fault. Both are raised by the display tick only, only in states that R42 rules out, and both
are safe: the model stops where the spec gives no effect (entry 7). -/
inductive Fault where
  /-- Raised by a tick with `LOOP_RUN = 1` and `MODE` 2 or 3: "stuck by convention (no rule applies)" (U4). Safe. -/
  | tickInReservedMode
  /-- Raised by a tick with `LOOP_RUN = 1` and `CAPACITY = 0`, where `mod CAPACITY` is not defined (R13, R210; U12).
  Safe. -/
  | tickWithoutStore
deriving DecidableEq, Repr

/-- Why a step is refused. -/
inductive Refusal where
  /-- Raised by `exec`'s arm of an instruction that has no meaning in the model. No arm raises it. Safe. -/
  | notModelled (mnemonic : String)
  /-- Raised by a meaning on a command record whose payload is not as long as R93 says, which is no packet (R95); the
  decoder never makes one (entry 10). Safe. -/
  | misframed
deriving DecidableEq, Repr

/-- The state of the block. Plain data. -/
structure State where
  /-- `N_MAX`, `M_MAX`, `CAP_MAX`: configuration, which no event writes (R9, R52; entry 1). -/
  params : Params
  /-- `LUT[0..16]`: binary32 patterns (R21). -/
  lut : Vector Word 17
  /-- `LUT_LOADED` (R22). -/
  lutLoaded : Bool
  /-- `CODE[0..15]` (R24). -/
  code : Vector Nibble 16
  /-- `CODE_LOADED` (R26). -/
  codeLoaded : Bool
  /-- `N`, the logical width (R27). -/
  n : BitVec 16
  /-- `M`, the logical height (R27). -/
  m : BitVec 16
  /-- `CAPACITY` (R28). -/
  capacity : Word
  /-- `LOOP_RUN` (R29). -/
  loopRun : Bool
  /-- `FAULT` (R30). -/
  fault : Bool
  /-- `ORDER`: the entries that differ from the identity, indices strictly rising; every other entry `k` holds `k`
  (R32, R51; entry 12). -/
  order : List (Nat × Word)
  /-- `MODE` (R34). -/
  mode : BitVec 2
  /-- `FR`, framesRemaining, two's complement (R35). -/
  fr : Word
  /-- `FIS`, framesInSequence (R35). -/
  fis : Word
  /-- `CI`, currentIndex (R36). -/
  ci : Word
  /-- `BI`, bufferIndex, two's complement (R37). -/
  bi : Word
  /-- `SA`, sequenceActive (R38). -/
  sa : Bool
  /-- `FFH`, firstFrameHeld (R38). -/
  ffh : Bool
  /-- `TRIG`, the camera trigger (R39). -/
  trig : Bool
  /-- `DISP_SLOT` (R40). -/
  dispSlot : Word
  /-- `FS`: the bytes that differ from the rebuild fill 0xFF, addresses strictly rising; every other byte of the store
  holds 0xFF (R41, R182; entry 11). -/
  fs : List Host.Cell
  /-- Output `play_pulse` of the latest event (R48). -/
  playPulse : Bool
  /-- Output `stop_pulse` of the latest event (R48). -/
  stopPulse : Bool
  /-- Output `present` of the latest event: the bytes emitted, if it emitted a frame (R45). -/
  present : Option (List Byte)
  /-- Output stream `rsp`: the words sent so far, oldest first (R50, R96; entry 5). -/
  rsp : List Word
  /-- Input stream `cmd`: the words received and not yet consumed, oldest first (R50, R90). -/
  cmd : List Word
  /-- The model's own field: the environment's further events, oldest first (R72; entry 2). -/
  events : List Event
deriving DecidableEq, Repr

/-- The state right after reset of hardware with the parameters `p`: R51's table, no word on any stream. -/
def State.resetWith (p : Params) : State :=
  { params := p
    lut := Vector.replicate 17 0#32
    lutLoaded := false
    code := Vector.replicate 16 0#4
    codeLoaded := false
    n := 0#16
    m := 0#16
    capacity := 0#32
    loopRun := false
    fault := false
    order := []
    mode := modeIdle
    fr := BitVec.ofInt 32 (-1)
    fis := 0#32
    ci := 0#32
    bi := BitVec.ofInt 32 (-1)
    sa := false
    ffh := false
    trig := false
    dispSlot := noSlotShown
    fs := []
    playPulse := false
    stopPulse := false
    present := none
    rsp := []
    cmd := []
    events := [] }

/-- The machine right after reset (R51, R280). -/
def State.reset : State := State.resetWith Config.params

end Sys2Proof.Machine
end

