-- ==== Sys2Proof/Machine/Ops.lean ====
section
/-! DEFINITION. The named operations every meaning uses: responses and failures (spec 30_encoding.md R96,
60_exceptions.md R250, R256), the frame store (20_memory.md R60 to R63), the order table (10_state.md R32), the rebuild
(43_framestore.md R182), the two resets (R241, R280) and the outputs of an event (R45, R48). -/

namespace Sys2Proof.Machine

/-- The status codes of R250. -/
inductive Status where
  | ok | errOpcode | errRange | errPlanes | errNotCfg | errBusy | errParam | errLevel
deriving DecidableEq, Repr

/-- The code of a status (R250). -/
def Status.byte : Status → Byte
  | .ok => 0x00#8
  | .errOpcode => 0x01#8
  | .errRange => 0x02#8
  | .errPlanes => 0x03#8
  | .errNotCfg => 0x04#8
  | .errBusy => 0x05#8
  | .errParam => 0x06#8
  | .errLevel => 0x07#8

/-- The status word of a response: `0x000000 ++ status[7:0]` (R96). -/
def Status.word (st : Status) : Word := st.byte.setWidth 32

/-- Send one response: the status word, then the data words (R96). -/
def State.respond (s : State) (st : Status) (data : List Word) : State :=
  { s with rsp := s.rsp ++ (st.word :: data) }

/-- A command that succeeded: status OK and its data words (R96). -/
def State.answer (s : State) (data : List Word) : Host.Outcome State Fault Refusal :=
  .next (s.respond .ok data)

/-- `raise Fail(code)` (00_scope.md R14): the block's one way of failing. The response is the status word alone and no
state changes (R256); nothing is saved, masked or redirected, and the next packet follows (R257). -/
def State.fail (s : State) (st : Status) : Host.Outcome State Fault Refusal :=
  .next (s.respond st [])

/-- Go on with a command record if its payload has the length of R93; any other record is no packet (R95, entry 10). -/
def framed (wellFramed : Bool) (go : Host.Outcome State Fault Refusal) : Host.Outcome State Fault Refusal :=
  if wellFramed then go else .refused .misframed

/-- What a byte of the store reads as after a rebuild, and so where none is listed: 0xFF (R182). -/
def storeFill (_ : Nat) : Byte := 0xFF#8

/-- The frame-store memory (R41). -/
abbrev Memory := List Host.Cell

/-- The byte at address `a` (R60(a)). -/
def Memory.read (mem : Memory) (a : Nat) : Byte := Cells.read storeFill mem a

/-- Write the bytes `bs` at addresses `a`, `a + 1`, … (R14). -/
def Memory.writeBytes (mem : Memory) (a : Nat) (bs : List Byte) : Memory := Cells.writeList storeFill mem a bs

/-- The `k` bytes at addresses `a .. a + k - 1` (R14). -/
def Memory.readBytes (mem : Memory) (a k : Nat) : List Byte := Cells.readList storeFill mem a k

/-- The canonical form of the frame store: addresses strictly rising, no listed byte equal to the fill. -/
def Memory.wf (mem : Memory) : Bool := Cells.wf storeFill mem

/-- `W = 2N`, the output width in pixels (R27). -/
def State.width (s : State) : Nat := 2 * s.n.toNat

/-- `H = 2M`, the output height in pixels (R27). -/
def State.height (s : State) : Nat := 2 * s.m.toNat

/-- `FB = 16·N·M`, the bytes of one stored frame (R27). -/
def State.frameBytes (s : State) : Nat := 16 * s.n.toNat * s.m.toNat

/-- The size of the store, `CAPACITY · FB` bytes (R41). -/
def State.storeBytes (s : State) : Nat := s.capacity.toNat * s.frameBytes

/-- The first address of slot `k`: `k · FB` (R61). -/
def State.slotAddr (s : State) (k : Nat) : Nat := k * s.frameBytes

/-- The byte of the frame store at address `a` (R41). -/
def State.byteAt (s : State) (a : Nat) : Byte := Memory.read s.fs a

/-- `MemRead(slot · FB, FB)`: the bytes of one slot in ascending address order (R14, R61). -/
def State.slotBytes (s : State) (k : Nat) : List Byte := Memory.readBytes s.fs (s.slotAddr k) s.frameBytes

/-- `MemWrite(slot · FB, …)`: write bytes from the start of slot `k` on (R14, R61). -/
def State.writeSlots (s : State) (k : Nat) (bs : List Byte) : State :=
  { s with fs := Memory.writeBytes s.fs (s.slotAddr k) bs }

/-- `rebuild()`: every byte of the store is 0xFF, all stored frames are gone, nothing else changes (R182). -/
def State.rebuild (s : State) : State := { s with fs := [] }

/-- What ORDER[k] holds where none is listed: the identity (R51). -/
def orderIdentity (k : Nat) : Word := BitVec.ofNat 32 k

/-- `ORDER[k]` (R32). -/
def State.orderAt (s : State) (k : Nat) : Word := Cells.read orderIdentity s.order k

/-- `ORDER[0 .. len-1] <- e` (R201). -/
def State.writeOrder (s : State) (e : List Word) : State :=
  { s with order := Cells.writeList orderIdentity s.order 0 e }

/-- The outputs an event emits only itself: at its start no pulse and no frame (R45, R48; entry 6). -/
def State.clearOutputs (s : State) : State :=
  { s with playPulse := false, stopPulse := false, present := none }

/-- Every piece of state at its value in R51's table; the parameters, the streams and the environment's events are not
in that table and stay (R241, R52). -/
def State.toReset (s : State) : State :=
  { State.resetWith s.params with rsp := s.rsp, cmd := s.cmd, events := s.events }

/-- The hardware reset input: R51's table, and the words received but not performed are dropped without a response
(R280, R281; entry 3). -/
def State.hardwareReset (s : State) : State := { s.toReset with cmd := [] }

end Sys2Proof.Machine
end

