-- ==== Sys2Proof/Machine/CodeTable.lean ====
section
/-! DEFINITION. The code table and the commands SET_CODE and CODE (spec 41_codetable.md). -/

namespace Sys2Proof.Machine

/-- `Code(L)`: the register CODE[L] for L = 0..15 (R140); a level above 15 has no code and is rejected (R142). -/
def codeLookup (table : Vector Nibble 16) (level : Level) : Option Nibble :=
  if h : level.toNat < 16 then some table[level.toNat] else none

/-- Nibble `k` of a SET_CODE payload word: bits 4k+3 : 4k (R143). -/
def payloadNibble (c : Word) (k : Nat) : Nibble := c.extractLsb' (4 * k) 4

/-- The table carried by the payload of SET_CODE: entries 0..7 in `c0`, 8..15 in `c1`, low nibble first (R143). -/
def codeTableOf (c0 c1 : Word) : Vector Nibble 16 :=
  #v[payloadNibble c0 0, payloadNibble c0 1, payloadNibble c0 2, payloadNibble c0 3,
    payloadNibble c0 4, payloadNibble c0 5, payloadNibble c0 6, payloadNibble c0 7,
    payloadNibble c1 0, payloadNibble c1 1, payloadNibble c1 2, payloadNibble c1 3,
    payloadNibble c1 4, payloadNibble c1 5, payloadNibble c1 6, payloadNibble c1 7]

/-- SET_CODE: all sixteen codes and CODE_LOADED (R143). -/
def execSetCode (c0 c1 : Word) (s : State) : Host.Outcome State Fault Refusal :=
  State.answer { s with code := codeTableOf c0 c1, codeLoaded := true } []

/-- CODE: ERR_NOTCFG until a table was loaded, ERR_LEVEL above 15, else the code (R145). -/
def execCode (level : Level) (s : State) : Host.Outcome State Fault Refusal :=
  if s.codeLoaded = false then s.fail .errNotCfg
  else
    match codeLookup s.code level with
    | none => s.fail .errLevel
    | some c => s.answer [c.setWidth 32]

end Sys2Proof.Machine
end

