-- ==== Sys2Proof/Machine/Flags.lean ====
section
/-! DEFINITION. The flag views of spec 10_state.md: STATUS (R31), SEQ_FLAGS (R40), and the block's output levels
(R45 to R49). -/

namespace Sys2Proof.Machine

/-- `GEOM_SET`: 1 exactly when `N ≠ 0` (R31). -/
def State.geomSet (s : State) : Bool := s.n != 0

/-- One flag at bit `k` of a view, every other bit zero (R31, R40). -/
def flagBit (flag : Bool) (k : Nat) : Word := (BitVec.ofBool flag).setWidth 32 <<< k

/-- The read-only view STATUS: bit 0 LOOP_RUN, bit 1 LUT_LOADED, bit 2 CODE_LOADED, bit 3 GEOM_SET, bit 4 FAULT, bits
31:5 zero (R31). -/
def State.statusView (s : State) : Word :=
  flagBit s.loopRun 0 ||| flagBit s.lutLoaded 1 ||| flagBit s.codeLoaded 2 ||| flagBit s.geomSet 3 |||
    flagBit s.fault 4

/-- The read-only view SEQ_FLAGS: bit 0 SA, bit 1 FFH, bit 2 TRIG, bits 31:3 zero (R40). -/
def State.seqFlagsView (s : State) : Word :=
  flagBit s.sa 0 ||| flagBit s.ffh 1 ||| flagBit s.trig 2

/-- The block's outputs after the latest event (R45 to R49). -/
structure Outputs where
  /-- `present` (R45). -/
  present : Option (List Byte)
  /-- `trig` (R46). -/
  trig : Bool
  /-- `buf_index`, two's complement (R47). -/
  bufIndex : Word
  /-- `play_pulse` (R48). -/
  playPulse : Bool
  /-- `stop_pulse` (R48). -/
  stopPulse : Bool
  /-- `disp_slot` (R49). -/
  dispSlot : Word
  /-- `mode` (R49). -/
  mode : BitVec 2
deriving DecidableEq, Repr

/-- The output signals as an observer samples them after an event (R216). -/
def State.outputs (s : State) : Outputs :=
  { present := s.present
    trig := s.trig
    bufIndex := s.bi
    playPulse := s.playPulse
    stopPulse := s.stopPulse
    dispSlot := s.dispSlot
    mode := s.mode }

end Sys2Proof.Machine
end

