-- ==== Sys2Proof/Machine/Operands.lean ====
section
/-! DEFINITION. The operand forms: bytes in words (spec 20_memory.md R64), the frame streams (R65, R66, R186), the phase
stream (R67), and the register numbers of READ_REG (10_state.md R43). -/

namespace Sys2Proof.Machine

/-- The four bytes a word carries, the byte with the lowest index in bits 7:0 (R64). -/
def wordBytes (w : Word) : List Byte :=
  [w.extractLsb' 0 8, w.extractLsb' 8 8, w.extractLsb' 16 8, w.extractLsb' 24 8]

/-- The byte sequence carried by a list of words (R64). -/
def bytesOfWords : List Word → List Byte
  | [] => []
  | w :: ws => wordBytes w ++ bytesOfWords ws

/-- The words that carry a byte sequence: word t is `b[4t+3] ++ b[4t+2] ++ b[4t+1] ++ b[4t]` (R64). Frames are whole
pixels of four bytes (R65), so no bytes are left over. -/
def wordsOfBytes : List Byte → List Word
  | b0 :: b1 :: b2 :: b3 :: bs => (b3 ++ b2 ++ b1 ++ b0) :: wordsOfBytes bs
  | _ => []

/-- Pixels of three bytes R, G, B to stored pixels R, G, B, 0x00 (R186, layout 0). -/
def zeroAlpha : List Byte → List Byte
  | r :: g :: b :: bs => r :: g :: b :: 0x00#8 :: zeroAlpha bs
  | _ => []

/-- `toRGBA(layout, frame)` (R186): layout 0 gets alpha 0x00, layout 1 is stored verbatim. It keeps frame boundaries, so
it may be applied to a whole run of frames. Reserved layouts never reach it (R185). -/
def toRGBA (layout : BitVec 2) (bytes : List Byte) : List Byte :=
  if layout = 0 then zeroAlpha bytes else bytes

/-- The place of plane `p`, column `i`, row `j` in the phase stream: `p·N·M + j·N + i` (R67). -/
def phaseIndex (n m p i j : Nat) : Nat := p * (n * m) + j * n + i

/-- The value R43's table gives for register number `reg`; none where the number is unmapped (R242). -/
def State.readRegister (s : State) (reg : Word) : Option Word :=
  let r := reg.toNat
  if h : 0x10 ≤ r ∧ r ≤ 0x20 then some (s.lut[r - 0x10]'(by omega))
  else if h : 0x40 ≤ r ∧ r ≤ 0x4F then some ((s.code[r - 0x40]'(by omega)).setWidth 32)
  else if 0x80000000 ≤ r ∧ r < 0x80000000 + s.params.capMax then some (s.orderAt (r - 0x80000000))
  else
    match r with
    | 0x0 => some s.statusView
    | 0x1 => some (s.n.setWidth 32)
    | 0x2 => some (s.m.setWidth 32)
    | 0x3 => some s.capacity
    | 0x4 => some (s.mode.setWidth 32)
    | 0x5 => some s.fr
    | 0x6 => some s.fis
    | 0x7 => some s.ci
    | 0x8 => some s.bi
    | 0x9 => some s.seqFlagsView
    | 0xA => some s.dispSlot
    | _ => none

end Sys2Proof.Machine
end

