-- ==== Sys2Proof/Machine/FrameStore.lean ====
section
/-! DEFINITION. The frame store commands SET_GEOMETRY, RESIZE, INSERT, SET_AT and GET (spec 43_framestore.md). -/

namespace Sys2Proof.Machine

/-- SET_GEOMETRY: ERR_BUSY while the loop runs, ERR_PARAM for a zero or too large dimension, else N and M and a rebuild
(R181). -/
def execSetGeometry (n m : Word) (s : State) : Host.Outcome State Fault Refusal :=
  if s.loopRun then s.fail .errBusy
  else if n = 0 ∨ m = 0 ∨ s.params.nMax < n.toNat ∨ s.params.mMax < m.toNat then s.fail .errParam
  else (State.rebuild { s with n := n.setWidth 16, m := m.setWidth 16 }).answer []

/-- RESIZE: ERR_BUSY while the loop runs, ERR_PARAM for 0 or above CAP_MAX, else CAPACITY and a rebuild (R183). -/
def execResize (cap : Word) (s : State) : Host.Outcome State Fault Refusal :=
  if s.loopRun then s.fail .errBusy
  else if cap = 0 ∨ s.params.capMax < cap.toNat then s.fail .errParam
  else (State.rebuild { s with capacity := cap }).answer []

/-- INSERT: ERR_PARAM for a reserved layout, ERR_RANGE where `offset + count > CAPACITY` without wrap-around, else the
frames from slot `offset` on (R185). Frame f's byte r goes to `(offset + f)·FB + r`, which is the place of the converted
payload's byte `f·FB + r` from `offset·FB` on, so the run of frames is written at once (entry 13). -/
def execInsert (layout : BitVec 2) (offset count : Word) (frames : List Word) (s : State) :
    Host.Outcome State Fault Refusal :=
  framed ((Instr.insert layout offset count frames).wf s.n.toNat s.m.toNat)
    (if 2 ≤ layout.toNat then s.fail .errParam
    else if s.capacity.toNat < offset.toNat + count.toNat then s.fail .errRange
    else (s.writeSlots offset.toNat (toRGBA layout (bytesOfWords frames))).answer [])

/-- SET_AT: ERR_RANGE above the last slot, else the frame verbatim (R188). -/
def execSetAt (index : Word) (frame : List Word) (s : State) : Host.Outcome State Fault Refusal :=
  framed ((Instr.setAt index frame).wf s.n.toNat s.m.toNat)
    (if s.capacity.toNat ≤ index.toNat then s.fail .errRange
    else (s.writeSlots index.toNat (bytesOfWords frame)).answer [])

/-- GET: ERR_RANGE above the last slot, else the bytes of the slot as an RGBA stream; no state is written (R189). -/
def execGet (index : Word) (s : State) : Host.Outcome State Fault Refusal :=
  if s.capacity.toNat ≤ index.toNat then s.fail .errRange
  else s.answer (wordsOfBytes (s.slotBytes index.toNat))

end Sys2Proof.Machine
end

