-- ==== Sys2Proof/Machine/Binary32.lean ====
section
/-! DEFINITION. The floating-point notation of spec 00_scope.md R15: the value of a binary32 datum, the ordered
less-than and the rounded absolute difference. A finite value is held exactly, as an integer number of units of 2^-149
(the least subnormal), so the difference of two values is exact before it is rounded. -/

namespace Sys2Proof.Machine

/-- The value of a binary32 datum: not a number, an infinity, or `z · 2^-149` (R15). -/
inductive Val32 where
  | nan
  | negInf
  | finite (z : Int)
  | posInf
deriving DecidableEq, Repr

/-- The magnitude of a finite datum with exponent field `e` and fraction field `f`, in units of 2^-149: subnormal for
`e = 0`, else `(2^23 + f) · 2^(e-1)` (R15, R92). -/
def binary32Magnitude (e f : Nat) : Nat :=
  if e = 0 then f else (2 ^ 23 + f) * 2 ^ (e - 1)

/-- The value of a bit pattern: sign bit 31, exponent bits 30:23, fraction bits 22:0 (R92); an exponent field of all
ones is an infinity or, with a non-zero fraction, a NaN (R15). -/
def Val32.ofBits (w : Word) : Val32 :=
  let e := (w.extractLsb' 23 8).toNat
  let f := (w.extractLsb' 0 23).toNat
  if e = 255 then
    if f = 0 then (if w.getLsbD 31 then .negInf else .posInf) else .nan
  else .finite (if w.getLsbD 31 then -(binary32Magnitude e f : Int) else (binary32Magnitude e f : Int))

/-- `f <_F g`, the ordered less-than: false if either is a NaN (R15). Both zeros are `finite 0`. -/
def Val32.lt : Val32 → Val32 → Bool
  | .finite a, .finite b => decide (a < b)
  | .negInf, .finite _ => true
  | .negInf, .posInf => true
  | .finite _, .posInf => true
  | .finite _, .negInf => false
  | .finite _, .nan => false
  | .negInf, .negInf => false
  | .negInf, .nan => false
  | .posInf, _ => false
  | .nan, _ => false

/-- A magnitude of `x` units rounded to 24 significant bits, to nearest, ties to even (R15). Below 2^24 units every
integer is representable, so nothing is rounded and subnormals are kept. -/
def roundSignificand (x : Nat) : Nat :=
  if x < 2 ^ 24 then x
  else
    let shift := Nat.log2 x - 23
    let q := x / 2 ^ shift
    let r := x % 2 ^ shift
    let half := 2 ^ (shift - 1)
    if half < r ∨ (r = half ∧ q % 2 = 1) then (q + 1) * 2 ^ shift else q * 2 ^ shift

/-- `round32` of a magnitude: the rounded magnitude, overflowing to +∞ from 2^128, which is 2^128 · 2^149 units, on
(R15). -/
def roundMagnitude (x : Nat) : Val32 :=
  if 2 ^ 128 * 2 ^ 149 ≤ roundSignificand x then .posInf else .finite (roundSignificand x : Int)

/-- `absdiff(f, g) = |round32(val f - val g)|` (R15). Rounding to nearest-even is symmetric, so the magnitude of the exact
difference is rounded (entry 9). R15 gives no difference of two equal infinities or with a NaN: IEEE 754's NaN, which the
quantizer never meets (R123; entry 8, PRESUMED). -/
def Val32.absdiff : Val32 → Val32 → Val32
  | .finite a, .finite b => roundMagnitude (a - b).natAbs
  | .nan, _ => .nan
  | .finite _, .nan => .nan
  | .negInf, .nan => .nan
  | .posInf, .nan => .nan
  | .posInf, .posInf => .nan
  | .negInf, .negInf => .nan
  | .posInf, .negInf => .posInf
  | .negInf, .posInf => .posInf
  | .posInf, .finite _ => .posInf
  | .negInf, .finite _ => .posInf
  | .finite _, .posInf => .posInf
  | .finite _, .negInf => .posInf

end Sys2Proof.Machine
end

