-- ==== Sys2Proof/Machine/Quantizer.lean ====
section
/-! DEFINITION. The phase quantizer and the commands SET_LUT and QUANTIZE (spec 40_quantizer.md). -/

namespace Sys2Proof.Machine

/-- The value of breakpoint `LUT[k]`, k = 0..16 (R21, R15). -/
def breakpoint (lut : Vector Word 17) (k : Fin 17) : Val32 := Val32.ofBits lut[k.val]

/-- The bracket test: `LUT[k] <_F v` and `v <_F LUT[k+1]`, strict on both sides (R122). -/
def bracketHolds (lut : Vector Word 17) (v : Word) (k : Fin 16) : Bool :=
  (breakpoint lut k.castSucc).lt (Val32.ofBits v) && (Val32.ofBits v).lt (breakpoint lut k.succ)

/-- The first bracket that holds `v`, scanning k = 0, 1, …, 15 (R121, R127). -/
def firstBracket (lut : Vector Word 17) (v : Word) : Option (Fin 16) :=
  (List.finRange 16).find? (bracketHolds lut v)

/-- The upper breakpoint of bracket `k` is strictly nearer: `d_hi <_F d_lo` on the rounded distances (R123, R124). -/
def upperNearer (lut : Vector Word 17) (v : Word) (k : Fin 16) : Bool :=
  (Val32.absdiff (Val32.ofBits v) (breakpoint lut k.succ)).lt
    (Val32.absdiff (Val32.ofBits v) (breakpoint lut k.castSucc))

/-- `Quantize(v)` (R121): in the first matching bracket the nearer end, ties to the lower index (R124), the upper index
modulo 16 (R125); 0 where no bracket matches (R126). -/
def quantize (lut : Vector Word 17) (v : Word) : Level :=
  match firstBracket lut v with
  | none => 0
  | some k => if upperNearer lut v k then BitVec.ofNat 5 ((k.val + 1) % 16) else BitVec.ofNat 5 k.val

/-- SET_LUT: all seventeen breakpoints and LUT_LOADED; no value is rejected (R131). -/
def execSetLut (table : Vector Word 17) (s : State) : Host.Outcome State Fault Refusal :=
  State.answer { s with lut := table, lutLoaded := true } []

/-- QUANTIZE: ERR_NOTCFG until a table was loaded, else the level of `v` (R132). -/
def execQuantize (v : Word) (s : State) : Host.Outcome State Fault Refusal :=
  if s.lutLoaded = false then s.fail .errNotCfg
  else s.answer [(quantize s.lut v).setWidth 32]

end Sys2Proof.Machine
end

