-- ==== Sys2Proof/Machine/Packer.lean ====
section
/-! DEFINITION. The hologram packer and the command PACK (spec 42_packer.md). The packed frame is defined per output byte
by the closed form of R160; the two evaluation orders of R158 and R162 stand in Machine/PackOrders.lean. -/

namespace Sys2Proof.Machine

/-- `colorChannel(p) = (p mod 24) / 8` (R151). -/
def colorChannel (p : Nat) : Nat := p % 24 / 8

/-- `bitOffset(p) = p mod 8` (R151). -/
def bitOffset (p : Nat) : Nat := p % 8

/-- The code bit that the corner with column offset `dx` and row offset `dy` carries: `2·dx + (1 - dy)` (R153). -/
def kmap (dx dy : Nat) : Nat := 2 * dx + (1 - dy)

/-- The codes of a phase stream, `Code(Quantize(phase))` per word (R152); none if a level has no code (R142). -/
def codesOf (lut : Vector Word 17) (table : Vector Nibble 16) : List Word → Option (List Nibble)
  | [] => some []
  | v :: vs =>
    match codeLookup table (quantize lut v), codesOf lut table vs with
    | some c, some cs => some (c :: cs)
    | _, _ => none

/-- `code_p(i, j)`: the code of plane `p` at column `i`, row `j` (R152), from the codes in phase-stream order (R67). A
framed PACK has one for every `p < P`, `i < N`, `j < M`. -/
def codeAt (codes : List Nibble) (n m p i j : Nat) : Nibble := codes.getD (phaseIndex n m p i j) 0

/-- What plane `p` adds to a byte: code bit `k` shifted to bit `b`, nothing for an absent plane (R154, R160). -/
def planeBit (codes : List Nibble) (planes n m p i j k b : Nat) : Byte :=
  if p < planes && (codeAt codes n m p i j).getLsbD k then 1#8 <<< b else 0#8

/-- `new(x, y, c)`: the OR over the planes 8c .. 8c+7 that are present (R160). -/
def newByte (codes : List Nibble) (planes n m x y c : Nat) : Byte :=
  (List.range 8).foldl
    (fun acc b => acc ||| planeBit codes planes n m (8 * c + b) (x / 2) (y / 2) (kmap (x % 2) (y % 2)) b) 0#8

/-- One byte of the packed frame: alpha is 255 (R155); a colour byte is cleared or kept as `clr` says (R156), then the
planes are OR-ed in (R160). `old` is the byte of the destination before the pack. -/
def packedByte (clr : Bool) (codes : List Nibble) (planes n m x y c : Nat) (old : Byte) : Byte :=
  if c = 3 then 0xFF#8
  else (if clr then 0#8 else old) ||| newByte codes planes n m x y c

/-- `PackInto(F, clr, P, phase)` by the closed form (R160): byte `q` of the frame is channel `q mod 4` of pixel
`(q/4 mod W, q/4 / W)` (R62). -/
def packInto (clr : Bool) (codes : List Nibble) (planes n m : Nat) (frame : List Byte) : List Byte :=
  frame.mapIdx fun q old => packedByte clr codes planes n m (q / 4 % (2 * n)) (q / 4 / (2 * n)) (q % 4) old

/-- PACK (R165): the checks in R252's order, then the slot is packed. The last check is the level-16 assertion: it would
set FAULT, write nothing to FS and answer ERR_LEVEL, and it never fires (R142(b), R259). -/
def execPack (clr : Bool) (planes : BitVec 8) (dst : Word) (phase : List Word) (s : State) :
    Host.Outcome State Fault Refusal :=
  framed ((Instr.pack clr planes dst phase).wf s.n.toNat s.m.toNat)
    (if s.n = 0 ∨ s.lutLoaded = false ∨ s.codeLoaded = false then s.fail .errNotCfg
    else if 24 < planes.toNat then s.fail .errPlanes
    else if s.capacity.toNat ≤ dst.toNat then s.fail .errRange
    else
      match codesOf s.lut s.code phase with
      | none => State.fail { s with fault := true } .errLevel
      | some codes =>
        (s.writeSlots dst.toNat
          (packInto clr codes planes.toNat s.n.toNat s.m.toNat (s.slotBytes dst.toNat))).answer [])

end Sys2Proof.Machine
end

