-- ==== Sys2Proof/Machine/Sequencer.lean ====
section
/-! DEFINITION. The playback sequencer: the commands SET_ORDER, START_LOOP, STOP_LOOP and START_SEQ, and the display tick
(spec 44_sequencer.md). -/

namespace Sys2Proof.Machine

/-- SET_ORDER: ERR_RANGE where `len > CAPACITY`, else the first `len` entries, values unchecked (R201). -/
def execSetOrder (len : Word) (entries : List Word) (s : State) : Host.Outcome State Fault Refusal :=
  framed ((Instr.setOrder len entries).wf s.n.toNat s.m.toNat)
    (if s.capacity.toNat < len.toNat then s.fail .errRange
    else (s.writeOrder entries).answer [])

/-- START_LOOP: ERR_NOTCFG without a capacity or a geometry, else LOOP_RUN (R204). -/
def execStartLoop (s : State) : Host.Outcome State Fault Refusal :=
  if s.capacity = 0 ∨ s.n = 0 then s.fail .errNotCfg
  else State.answer { s with loopRun := true } []

/-- STOP_LOOP: LOOP_RUN cleared, the sequencer frozen as it is (R205). -/
def execStopLoop (s : State) : Host.Outcome State Fault Refusal :=
  State.answer { s with loopRun := false } []

/-- START_SEQ: ERR_RANGE where `n > CAPACITY`, else FIS, FR, SA and FFH; MODE, CI, TRIG, BI and DISP_SLOT stay (R206). -/
def execStartSeq (n : Word) (s : State) : Host.Outcome State Fault Refusal :=
  if s.capacity.toNat < n.toNat then s.fail .errRange
  else State.answer { s with fis := n, fr := n, sa := true, ffh := true } []

/-- `clamp(v, lo, hi)` (R13). -/
def clampNat (v lo hi : Nat) : Nat := if v < lo then lo else if hi < v then hi else v

/-- `min(BI + 1, 2^31 - 1)` on a two's-complement register (R37, R213). -/
def saturatingSucc (bi : Word) : Word := BitVec.ofInt 32 (min (bi.toInt + 1) (2 ^ 31 - 1))

/-- The start test of step 1: `SA = 1 and FR = FIS and held = 0`, FR signed and FIS unsigned as integers (R211, R220). -/
def State.startFires (s : State) (held : Bool) : Bool :=
  s.sa && decide (s.fr.toInt = (s.fis.toNat : Int)) && !held

/-- Step 1, the start test: MODE, CI and TRIG on the start tick, and the pulse (R211). -/
def tickStart (held : Bool) (s : State) : State :=
  if s.startFires held then { s with mode := modePlaying, ci := 0, trig := true, playPulse := true }
  else { s with playPulse := false }

/-- Step 2, selection: `DISP_SLOT <- ORDER[CI mod CAPACITY] mod CAPACITY` (R212). -/
def tickSelect (s : State) : State :=
  { s with dispSlot :=
      BitVec.ofNat 32 ((s.orderAt (s.ci.toNat % s.capacity.toNat)).toNat % s.capacity.toNat) }

/-- Step 3, the synchronisation counter (R213). -/
def tickCount (s : State) : State :=
  { s with bi := if s.trig then saturatingSucc s.bi else BitVec.ofInt 32 (-1) }

/-- Step 4, hold or advance (R214): a hold tick clears FFH; another tick with `FR ≥ 0` moves CI up, clamped to the last
slot, and FR down. -/
def tickAdvance (held : Bool) (s : State) : State :=
  if held then { s with ffh := false }
  else if 0 ≤ s.fr.toInt then
    { s with
      ci := BitVec.ofNat 32 (clampNat (s.ci.toNat + 1) 0 (s.capacity.toNat - 1))
      fr := s.fr - 1 }
  else s

/-- Step 5, the end of a sequence: back to Idle, and the pulse (R215). -/
def tickEnd (s : State) : State :=
  if s.fr.toInt < 0 ∧ s.sa = true then
    { s with mode := modeIdle, sa := false, bi := BitVec.ofInt 32 (-1), trig := false, stopPulse := true }
  else { s with stopPulse := false }

/-- The frame a presenting tick emits: the bytes of slot DISP_SLOT (R45, R210). -/
def tickPresent (s : State) : State :=
  { s with present := some (s.slotBytes s.dispSlot.toNat) }

/-- The five steps of a tick with LOOP_RUN = 1, each seeing the writes of those before it (R210). -/
def presentingTick (s : State) : State :=
  tickPresent (tickEnd (tickAdvance s.ffh (tickCount (tickSelect (tickStart s.ffh s)))))

/-- The display tick (R208): with LOOP_RUN = 0 nothing changes, nothing is presented and no pulse is given (R209); else
the five steps of R210. MODE 2 or 3 is stuck (U4), and so is a capacity of 0, where `mod CAPACITY` has no value (R13);
R42 rules both out (entry 7). -/
def displayTick (s : State) : Host.Outcome State Fault Refusal :=
  if s.loopRun = false then .next s.clearOutputs
  else if 2 ≤ s.mode.toNat then .fault .tickInReservedMode
  else if s.capacity = 0 then .fault .tickWithoutStore
  else .next (presentingTick s)

end Sys2Proof.Machine
end

