-- ==== Sys2Proof/Machine/System.lean ====
section
/-! DEFINITION. The system commands NOP, SOFT_RESET and READ_REG (spec 45_system.md R240 to R242). -/

namespace Sys2Proof.Machine

/-- NOP: status OK, nothing else (R240). -/
def execNop (s : State) : Host.Outcome State Fault Refusal := s.answer []

/-- SOFT_RESET: every piece of state to its value in R51's table, then status OK; no pulse (R241). -/
def execSoftReset (s : State) : Host.Outcome State Fault Refusal := s.toReset.answer []

/-- READ_REG: the value R43's table gives, ERR_PARAM for an unmapped number (R242). -/
def execReadReg (reg : Word) (s : State) : Host.Outcome State Fault Refusal :=
  match s.readRegister reg with
  | none => s.fail .errParam
  | some v => s.answer [v]

end Sys2Proof.Machine
end

