-- ==== Sys2Proof/Machine/Dispatch.lean ====
section
/-! DEFINITION. One arm per command: the meaning of each row of spec/opcode_table.json. -/

namespace Sys2Proof.Machine

/-- The meaning of a command (spec 30_encoding.md R94 step 6). -/
def exec (i : Instr) (s : State) : Host.Outcome State Fault Refusal :=
  match i with
  | .nop => Sys2Proof.Machine.execNop s
  | .softReset => Sys2Proof.Machine.execSoftReset s
  | .readReg reg => Sys2Proof.Machine.execReadReg reg s
  | .setLut table => Sys2Proof.Machine.execSetLut table s
  | .quantize v => Sys2Proof.Machine.execQuantize v s
  | .setCode c0 c1 => Sys2Proof.Machine.execSetCode c0 c1 s
  | .code level => Sys2Proof.Machine.execCode level s
  | .pack clr planes dst phase => Sys2Proof.Machine.execPack clr planes dst phase s
  | .setGeometry n m => Sys2Proof.Machine.execSetGeometry n m s
  | .resize cap => Sys2Proof.Machine.execResize cap s
  | .insert layout offset count frames => Sys2Proof.Machine.execInsert layout offset count frames s
  | .setAt index frame => Sys2Proof.Machine.execSetAt index frame s
  | .get index => Sys2Proof.Machine.execGet index s
  | .setOrder len entries => Sys2Proof.Machine.execSetOrder len entries s
  | .startSeq n => Sys2Proof.Machine.execStartSeq n s
  | .startLoop => Sys2Proof.Machine.execStartLoop s
  | .stopLoop => Sys2Proof.Machine.execStopLoop s

end Sys2Proof.Machine
end

