-- ==== Sys2Proof/Machine/Fetch.lean ====
section
/-! DEFINITION. The two agents' turns: the command agent takes a packet from the `cmd` stream (spec 30_encoding.md R94,
R95), and one event of the environment's order is performed (00_scope.md R11, 20_memory.md R72). -/

namespace Sys2Proof.Machine

/-- The state as a command meets it: its packet consumed, `rest` left on the stream, the outputs of the event before
cleared (R94, R48; entry 6). -/
def State.consumed (s : State) (rest : List Word) : State := { s.clearOutputs with cmd := rest }

/-- The command agent's turn on the words waiting in `cmd`: an illegal packet is consumed whole and answered ERR_OPCODE
(R94, R97); a command is performed; without a whole packet the agent waits and nothing happens (R95, U11; entry 4). -/
def commandTurn (s : State) : Host.Outcome State Fault Refusal :=
  match decode s.n.toNat s.m.toNat s.cmd with
  | .incomplete => .next s
  | .illegal _ rest => (s.consumed rest).fail .errOpcode
  | .packet i rest => exec i (s.consumed rest)

/-- One event of the block. With no event listed the command agent has its turn on whatever waits in `cmd` (entry 2). -/
def performEvent (s : State) : Host.Outcome State Fault Refusal :=
  match s.events with
  | [] => commandTurn s
  | .command arrived :: es => commandTurn { s with events := es, cmd := s.cmd ++ arrived }
  | .tick :: es => displayTick { s with events := es }
  | .rst :: es => .next (State.hardwareReset { s with events := es })

/-- The state in which the instruction whose bits are `w` (numbered as spec/opcode_table.json numbers them) is the packet
the command agent takes next. -/
def State.placePacket (s : State) (nbits w : Nat) : State :=
  { s with
    cmd := tablePacket nbits w s.n.toNat s.m.toNat ++ s.cmd
    events := .command [] :: s.events }

end Sys2Proof.Machine
end

