-- ==== Sys2Proof/Machine/Step.lean ====
section
/-! DEFINITION. The step of the block: one event of the environment's order, performed as one atomic transition of the
whole state (spec 00_scope.md R11). -/

namespace Sys2Proof.Machine

/-- One step: the next event (R11, R72). -/
def step (s : State) : Host.Outcome State Fault Refusal := performEvent s

/-- `s` with the instruction whose bits are `w` as the packet that the next step takes from the `cmd` stream: its words
stand first in `cmd` and the command agent has the next turn. It stands for the host sending that packet (entry 2). -/
def State.withFetchWord (s : State) (nbits w : Nat) : State := s.placePacket nbits w

end Sys2Proof.Machine
end

