-- ==== Sys2Proof/Machine/Pseudo.lean ====
section
/-! DEFINITION. The pseudo-instructions of spec 30_encoding.md R99: other spellings of PACK, SET_ORDER and SET_AT, each
with its expansion. They have no words of their own. -/

namespace Sys2Proof.Machine

/-- `px(r, g, b, a)`: the word `a ++ b ++ g ++ r` (R98). -/
def pixelWord (r g b a : Byte) : Word := a ++ b ++ g ++ r

/-- `PACKC dst, planes`: clear, then pack (R99). -/
def pseudoPackC (dst : Word) (planes : BitVec 8) (phase : List Word) : Instr := .pack true planes dst phase

/-- `PACKA dst, planes`: accumulate (R99). -/
def pseudoPackA (dst : Word) (planes : BitVec 8) (phase : List Word) : Instr := .pack false planes dst phase

/-- `ORDER_IDENTITY`: SET_ORDER with len = CAPACITY and the entries 0, 1, …, CAPACITY - 1 (R99). -/
def pseudoOrderIdentity (s : State) : Instr :=
  .setOrder s.capacity ((List.range s.capacity.toNat).map (BitVec.ofNat 32))

/-- `FILL_SLOT index, r, g, b, a`: SET_AT with the pixel in all 4·N·M words (R99). -/
def pseudoFillSlot (s : State) (index : Word) (r g b a : Byte) : Instr :=
  .setAt index (List.replicate (frameWords s.n.toNat s.m.toNat) (pixelWord r g b a))

/-- `ZERO_SLOT index` = `FILL_SLOT index, 0, 0, 0, 255` (R99). -/
def pseudoZeroSlot (s : State) (index : Word) : Instr := pseudoFillSlot s index 0x00#8 0x00#8 0x00#8 0xFF#8

end Sys2Proof.Machine
end

