-- ==== Sys2Proof/Machine/PackOrders.lean ====
section
/-! DEFINITION. The two evaluation orders the document gives for the packer: the sequential loops of spec 42_packer.md
R158 and the 16×16 tiles of R162. No meaning calls them; they are here to be proved equal to `packInto` (R161). A frame
is its bytes in address order: `F[x, y, c]` is byte `(y·W + x)·4 + c` (R62). -/

namespace Sys2Proof.Machine

/-- The place of `F[x, y, c]` in a frame of width `w` (R62). -/
def frameIndex (w x y c : Nat) : Nat := (y * w + x) * 4 + c

/-- `F[x, y, c] <- F[x, y, c] | v` (R158). -/
def orByte (w x y c : Nat) (v : Byte) (frame : List Byte) : List Byte :=
  frame.modify (frameIndex w x y c) fun old => old ||| v

/-- `code[k] << off` (R154). -/
def codeBit (code : Nibble) (k off : Nat) : Byte :=
  (BitVec.ofBool (code.getLsbD k)).setWidth 8 <<< off

/-- The four updates of R158's innermost loop: corner (0,1) gets code[0], (0,0) code[1], (1,1) code[2], (1,0) code[3]. -/
def orCorners (n i j ch off : Nat) (code : Nibble) (frame : List Byte) : List Byte :=
  orByte (2 * n) (2 * i + 1) (2 * j) ch (codeBit code 3 off)
    (orByte (2 * n) (2 * i + 1) (2 * j + 1) ch (codeBit code 2 off)
      (orByte (2 * n) (2 * i) (2 * j) ch (codeBit code 1 off)
        (orByte (2 * n) (2 * i) (2 * j + 1) ch (codeBit code 0 off) frame)))

/-- The clearing loop of R158: `F[x, y, c] <- 0` for every pixel and c = 0, 1, 2. -/
def scalarClear (n m : Nat) (frame : List Byte) : List Byte :=
  (List.range (2 * m)).foldl
    (fun f y => (List.range (2 * n)).foldl
      (fun f x => (List.range 3).foldl (fun f c => f.set (frameIndex (2 * n) x y c) 0#8) f) f) frame

/-- The accumulation loops of R158: planes, then rows, then columns. -/
def scalarAccumulate (codes : List Nibble) (planes n m : Nat) (frame : List Byte) : List Byte :=
  (List.range planes).foldl
    (fun f p => (List.range m).foldl
      (fun f j => (List.range n).foldl
        (fun f i => orCorners n i j (colorChannel p) (bitOffset p) (codeAt codes n m p i j) f) f) f) frame

/-- The alpha loop of R158: `F[x, y, 3] <- 255` for every pixel. -/
def scalarAlpha (n m : Nat) (frame : List Byte) : List Byte :=
  (List.range (2 * m)).foldl
    (fun f y => (List.range (2 * n)).foldl (fun f x => f.set (frameIndex (2 * n) x y 3) 0xFF#8) f) frame

/-- `PackInto` in the sequential form (R158). -/
def packScalar (clr : Bool) (codes : List Nibble) (planes n m : Nat) (frame : List Byte) : List Byte :=
  scalarAlpha n m (scalarAccumulate codes planes n m (if clr then scalarClear n m frame else frame))

/-- One work item of the data-parallel form: it computes the four bytes of its pixel from the destination before the pack
and writes only them; outside the image it does nothing (R162). -/
def workItem (clr : Bool) (codes : List Nibble) (planes n m : Nat) (before : List Byte) (x y : Nat)
    (frame : List Byte) : List Byte :=
  if x < 2 * n ∧ y < 2 * m then
    (List.range 4).foldl
      (fun f c => f.set (frameIndex (2 * n) x y c)
        (packedByte clr codes planes n m x y c (before.getD (frameIndex (2 * n) x y c) 0#8))) frame
  else frame

/-- `PackInto` in the data-parallel form, the tiles and lanes in one of the orders R162 leaves free: a grid of
`ceil(2N/16) × ceil(2M/16)` tiles of 16×16 work items. -/
def packTiled (clr : Bool) (codes : List Nibble) (planes n m : Nat) (frame : List Byte) : List Byte :=
  (List.range ((2 * m + 15) / 16)).foldl
    (fun f ty => (List.range ((2 * n + 15) / 16)).foldl
      (fun f tx => (List.range 16).foldl
        (fun f ly => (List.range 16).foldl
          (fun f lx => workItem clr codes planes n m frame (16 * tx + lx) (16 * ty + ly) f) f) f) f) frame

/-- Reading a code back out of a packed frame: bit `bitOffset(p)` of channel `colorChannel(p)` at the four corners of
logical pixel (i, j), assembled as `bit3 ++ bit2 ++ bit1 ++ bit0` from corners (1,0), (1,1), (0,0), (0,1) (R163). -/
def readBackCode (n p i j : Nat) (frame : List Byte) : Nibble :=
  let corner (dx dy : Nat) : Bool :=
    (frame.getD (frameIndex (2 * n) (2 * i + dx) (2 * j + dy) (colorChannel p)) 0#8).getLsbD (bitOffset p)
  BitVec.ofBool (corner 1 0) ++ BitVec.ofBool (corner 1 1) ++ BitVec.ofBool (corner 0 0) ++ BitVec.ofBool (corner 0 1)

end Sys2Proof.Machine
end

