-- ==== Sys2Proof/Safety.lean ====
section
/-! DEFINITION. What holds of every reachable state (spec 10_state.md R42, with R36, R40, R41 and R32 for the position,
the slot shown, the store and the order), what a safe step is, and the spec's own terms that the statements use. -/

namespace Sys2Proof.Machine

/-- R42(a): `N = 0 ⇔ M = 0`; `N ≤ N_MAX`; `M ≤ M_MAX`; `CAPACITY ≤ CAP_MAX`. -/
abbrev State.GeometryOk (s : State) : Prop :=
  (s.n = 0 ↔ s.m = 0) ∧ s.n.toNat ≤ s.params.nMax ∧ s.m.toNat ≤ s.params.mMax ∧ s.capacity.toNat ≤ s.params.capMax

/-- R42(b): `LOOP_RUN = 1 ⇒ CAPACITY ≥ 1 ∧ N ≥ 1 ∧ M ≥ 1`. -/
abbrev State.LoopOk (s : State) : Prop :=
  s.loopRun = true → 1 ≤ s.capacity.toNat ∧ 1 ≤ s.n.toNat ∧ 1 ≤ s.m.toNat

/-- R42(c): `-1 ≤ FR ≤ FIS ≤ CAP_MAX`. -/
abbrev State.CountersOk (s : State) : Prop :=
  -1 ≤ s.fr.toInt ∧ s.fr.toInt ≤ (s.fis.toNat : Int) ∧ s.fis.toNat ≤ s.params.capMax

/-- R42(d): `MODE = Playing ⇔ TRIG = 1`, and `TRIG = 1 ⇒ SA = 1`. -/
abbrev State.TriggerOk (s : State) : Prop :=
  (s.mode = modePlaying ↔ s.trig = true) ∧ (s.trig = true → s.sa = true)

/-- R42(e): `TRIG = 0 ⇒ BI = -1`, and `TRIG = 1 ⇒ BI ≥ 0`. -/
abbrev State.BufferIndexOk (s : State) : Prop :=
  (s.trig = false → s.bi.toInt = -1) ∧ (s.trig = true → 0 ≤ s.bi.toInt)

/-- R42(f): `FFH = 1 ⇒ SA = 1 ∧ FR = FIS`. -/
abbrev State.HoldOk (s : State) : Prop :=
  s.ffh = true → s.sa = true ∧ s.fr.toInt = (s.fis.toNat : Int)

/-- R42(g): `SA = 0 ⇒ MODE = Idle ∧ FFH = 0 ∧ FR = -1`. -/
abbrev State.IdleOk (s : State) : Prop :=
  s.sa = false → s.mode = modeIdle ∧ s.ffh = false ∧ s.fr.toInt = -1

/-- R42(h): `MODE ∈ {Idle, Playing}`; `FAULT = 0`. -/
abbrev State.ModeOk (s : State) : Prop :=
  (s.mode = modeIdle ∨ s.mode = modePlaying) ∧ s.fault = false

/-- R36: `0 ≤ CI ≤ CAP_MAX - 1`. -/
abbrev State.PositionOk (s : State) : Prop := s.ci.toNat < s.params.capMax

/-- R40: no frame presented yet, or a slot number some capacity allows. -/
abbrev State.ShownOk (s : State) : Prop :=
  s.dispSlot = noSlotShown ∨ s.dispSlot.toNat < s.params.capMax

/-- The frame store is in its canonical form and no listed byte is outside its `CAPACITY · FB` bytes (R41). -/
abbrev State.StoreOk (s : State) : Prop :=
  Memory.wf s.fs = true ∧ Cells.within s.storeBytes s.fs = true

/-- The order table is in its canonical form and no listed entry is outside its CAP_MAX entries (R32). -/
abbrev State.OrderOk (s : State) : Prop :=
  Cells.wf orderIdentity s.order = true ∧ Cells.within s.params.capMax s.order = true

/-- R42: what holds after reset and is preserved by every command and every tick, under R9's constraints on the
parameters. -/
structure State.R42 (s : State) : Prop where
  params : s.params.ok
  geometry : s.GeometryOk
  loop : s.LoopOk
  counters : s.CountersOk
  trigger : s.TriggerOk
  bufferIndex : s.BufferIndexOk
  hold : s.HoldOk
  idle : s.IdleOk
  mode : s.ModeOk

/-- The whole invariant: R42 with the bounds of CI and DISP_SLOT, the store and the order table. -/
structure State.Inv (s : State) : Prop where
  r42 : s.R42
  position : s.PositionOk
  shown : s.ShownOk
  store : s.StoreOk
  orderTable : s.OrderOk

/-- A safe step ends in a next state. -/
def SafeStep (s : State) : Prop := ∃ t, step s = .next t

/-- The state after `k` display ticks, the tick agent alone acting (R208); none if a tick stops. -/
def ticksFrom : Nat → State → Option State
  | 0, s => some s
  | k + 1, s =>
    match ticksFrom k s with
    | none => none
    | some t =>
      match displayTick t with
      | .next u => some u
      | .fault _ => none
      | .refused _ => none

/-! ### The spec's own terms, for the statements -/

/-- The register table of READ_REG, row by row (R43): `RegisterValue s reg v` says that number `reg` reads `v`. -/
inductive RegisterValue (s : State) : Word → Word → Prop where
  | status : RegisterValue s 0x00000000#32 s.statusView
  | geomN : RegisterValue s 0x00000001#32 (s.n.setWidth 32)
  | geomM : RegisterValue s 0x00000002#32 (s.m.setWidth 32)
  | capacity : RegisterValue s 0x00000003#32 s.capacity
  | mode : RegisterValue s 0x00000004#32 (s.mode.setWidth 32)
  | framesRemaining : RegisterValue s 0x00000005#32 s.fr
  | framesInSeq : RegisterValue s 0x00000006#32 s.fis
  | currentIndex : RegisterValue s 0x00000007#32 s.ci
  | bufferIndex : RegisterValue s 0x00000008#32 s.bi
  | seqFlags : RegisterValue s 0x00000009#32 s.seqFlagsView
  | dispSlot : RegisterValue s 0x0000000A#32 s.dispSlot
  | lut (k : Fin 17) : RegisterValue s (BitVec.ofNat 32 (0x10 + k.val)) s.lut[k.val]
  | code (level : Fin 16) : RegisterValue s (BitVec.ofNat 32 (0x40 + level.val)) (s.code[level.val].setWidth 32)
  | order (k : Nat) (hk : k < s.params.capMax) : RegisterValue s (BitVec.ofNat 32 (0x80000000 + k)) (s.orderAt k)

/-- The unmapped register numbers as R242 lists them: the gaps and everything from `0x80000000 + CAP_MAX` up. -/
def UnmappedRegister (s : State) (reg : Word) : Prop :=
  (0xB ≤ reg.toNat ∧ reg.toNat ≤ 0xF) ∨ (0x21 ≤ reg.toNat ∧ reg.toNat ≤ 0x3F) ∨
    (0x50 ≤ reg.toNat ∧ reg.toNat ≤ 0x7FFFFFFF) ∨ 0x80000000 + s.params.capMax ≤ reg.toNat

/-- The data words of a successful response (R93, last column but one). -/
def responseWords (i : Instr) (n m : Nat) : Nat :=
  match i with
  | .readReg _ => 1
  | .quantize _ => 1
  | .code _ => 1
  | .get _ => 4 * n * m
  | .nop | .softReset | .setLut _ | .setCode _ _ | .pack _ _ _ _ | .setGeometry _ _ | .resize _ | .insert _ _ _ _
  | .setAt _ _ | .setOrder _ _ | .startSeq _ | .startLoop | .stopLoop => 0

/-- The must-be-zero header bits of a command's format (R91): Z 23:0, PK 23:9, CD 23:5, IN 23:2. -/
def reservedMask (i : Instr) : Word :=
  match i with
  | .pack _ _ _ _ => 0x00FFFE00#32
  | .code _ => 0x00FFFFE0#32
  | .insert _ _ _ _ => 0x00FFFFFC#32
  | .nop | .softReset | .readReg _ | .setLut _ | .quantize _ | .setCode _ _ | .setGeometry _ _ | .resize _ | .setAt _ _
  | .get _ | .setOrder _ _ | .startSeq _ | .startLoop | .stopLoop => 0x00FFFFFF#32

/-- The address of pixel `(x, y)`, channel `c` of slot `k`: `k·FB + (y·W + x)·4 + c` (R62). -/
def State.pixelAddr (s : State) (k x y c : Nat) : Nat := s.slotAddr k + (y * s.width + x) * 4 + c

/-- Byte `i` of the byte sequence carried by the words `ws`, the lowest byte of a word first (R64). -/
def streamByte (ws : List Word) (i : Nat) : Byte := (ws.getD (i / 4) 0).extractLsb' (8 * (i % 4)) 8

/-- `code_p(i, j) = CODE[Quantize(phase[p][i, j])]`, the phase being word `p·N·M + j·N + i` of the payload (R67, R152). -/
def State.phaseCode (s : State) (phase : List Word) (p i j : Nat) : Nibble :=
  s.code.toList.getD
    (quantize s.lut (phase.getD (p * s.n.toNat * s.m.toNat + j * s.n.toNat + i) 0)).toNat 0

/-- `val(a) ≤ val(b)`, neither a NaN. -/
def Val32.le (a b : Val32) : Prop := a ≠ .nan ∧ b ≠ .nan ∧ b.lt a = false

/-- The document's invariant on the table: `val(LUT[k]) ≤ val(LUT[k+1])` for k = 0..15 (R23). -/
def NonDecreasing (lut : Vector Word 17) : Prop :=
  ∀ k : Fin 16, (breakpoint lut k.castSucc).le (breakpoint lut k.succ)

/-- A magnitude with at most 24 significant bits, the exponent unbounded above (what `round32` may answer before
overflow, R15). -/
def Representable (x : Nat) : Prop := ∃ significand e : Nat, significand < 2 ^ 24 ∧ x = significand * 2 ^ e

/-- The distance of two magnitudes. -/
def distance (x y : Nat) : Nat := (x - y) + (y - x)

end Sys2Proof.Machine
end

