-- ==== Sys2Proof/Certificates/Slice0/Obligations.lean ====
section
/-! DEFINITION. The statements for the provers, each from the numbered rules of spec/. A statement about a command gives
the whole next state, so that it is also the command's frame and says where the command completes. -/

open Sys2Proof Sys2Proof.Machine

/-! ### Encoding -/

/-- A packet written by the encoder decodes to its command, whatever follows it (R90, R91, R93, R94). -/
def Obligations.DecodeOfEncode : Prop :=
  ∀ (n m : Nat) (i : Instr) (rest : List Word), i.wf n m = true → decode n m (encode i ++ rest) = .packet i rest

/-- A packet the decoder accepts is the encoding of its command and nothing else, with a payload of R93's length: no word
of it is read in two ways (R91, R93, R94). -/
def Obligations.EncodeOfDecode : Prop :=
  ∀ (n m : Nat) (ws rest : List Word) (i : Instr), decode n m ws = .packet i rest →
    ws = encode i ++ rest ∧ i.wf n m = true

/-- A header whose opcode byte is none of R93's seventeen is a packet of one word and illegal (R94 step 2, R97). -/
def Obligations.UnknownOpcodeIsIllegal : Prop :=
  ∀ (n m : Nat) (h : Word) (ws : List Word),
    h.extractLsb' 24 8 ∉ [0x00#8, 0x01#8, 0x02#8, 0x10#8, 0x11#8, 0x18#8, 0x19#8, 0x20#8, 0x30#8, 0x31#8, 0x32#8, 0x33#8,
      0x34#8, 0x40#8, 0x41#8, 0x42#8, 0x43#8] →
    decode n m (h :: ws) = .illegal .unknownOpcode ws

/-- A command's packet with any must-be-zero bits of its header set is illegal, and is consumed whole (R91, R94 step 5,
R97). -/
def Obligations.ReservedBitsAreIllegal : Prop :=
  ∀ (n m : Nat) (i : Instr) (h mask : Word) (ws rest : List Word),
    i.wf n m = true → encode i = h :: ws → mask ≠ 0 → mask &&& reservedMask i = mask →
    decode n m ((h ||| mask) :: ws ++ rest) = .illegal .reservedBits rest

/-- R100's worked encodings, each decoded: one per format, and the two illegal headers. -/
def Obligations.WorkedEncodingsDecode : Prop :=
  ∀ (n m : Nat) (payload rest : List Word),
    decode n m (0x00000000#32 :: rest) = .packet .nop rest ∧
    decode n m (0x02000000#32 :: 0x00000007#32 :: rest) = .packet (.readReg 7#32) rest ∧
    (payload.length = 24 * n * m →
      decode n m (0x20000118#32 :: 0x00000002#32 :: payload ++ rest) = .packet (.pack true 24#8 2#32 payload) rest) ∧
    (payload.length = 3 * n * m →
      decode n m (0x20000003#32 :: 0x00000000#32 :: payload ++ rest) = .packet (.pack false 3#8 0#32 payload) rest) ∧
    decode n m (0x19000010#32 :: rest) = .packet (.code 16#5) rest ∧
    (payload.length = 2 * 4 * n * m →
      decode n m (0x32000001#32 :: 0x00000003#32 :: 0x00000002#32 :: payload ++ rest) =
        .packet (.insert 1#2 3#32 2#32 payload) rest) ∧
    decode n m (0x30000000#32 :: 0x00000002#32 :: 0x00000001#32 :: rest) = .packet (.setGeometry 2#32 1#32) rest ∧
    decode n m (0x41000000#32 :: 0x00000003#32 :: rest) = .packet (.startSeq 3#32) rest ∧
    (∀ dst : Word, decode n m (0x20000200#32 :: dst :: rest) = .illegal .reservedBits rest) ∧
    decode n m (0x05000000#32 :: rest) = .illegal .unknownOpcode rest

/-! ### Events -/

/-- When the command agent has its turn and the stream begins with a packet, the step performs its command on the state
with the packet consumed and the outputs of the event before cleared (R94, R48). -/
def Obligations.StepPerformsDecodedCommand : Prop :=
  ∀ (s : State) (i : Instr) (rest : List Word),
    (∀ (arrived : List Word) (es : List Event), s.events = .command arrived :: es →
      decode s.n.toNat s.m.toNat (s.cmd ++ arrived) = .packet i rest →
      step s = exec i
        { s with events := es, cmd := rest, playPulse := false, stopPulse := false, present := none }) ∧
    (s.events = [] → decode s.n.toNat s.m.toNat s.cmd = .packet i rest →
      step s = exec i { s with cmd := rest, playPulse := false, stopPulse := false, present := none })

/-- An illegal packet is consumed whole, answered ERR_OPCODE, and changes no state, on every turn of the command agent
(R94, R97). That a turn with no event listed takes what waits in `cmd` is entry 2, the cleared outputs are entry 6. -/
def Obligations.IllegalPacketAnswersErrOpcode : Prop :=
  ∀ (s : State) (rest : List Word) (why : Reject),
    (∀ (arrived : List Word) (es : List Event), s.events = .command arrived :: es →
      decode s.n.toNat s.m.toNat (s.cmd ++ arrived) = .illegal why rest →
      step s = .next
        { s with
          events := es, cmd := rest, playPulse := false, stopPulse := false, present := none,
          rsp := s.rsp ++ [0x00000001#32] }) ∧
    (s.events = [] → decode s.n.toNat s.m.toNat s.cmd = .illegal why rest →
      step s = .next
        { s with
          cmd := rest, playPulse := false, stopPulse := false, present := none, rsp := s.rsp ++ [0x00000001#32] })

/-- A stream that ends in the middle of a packet gives the command agent no step for it, on every turn: nothing is
performed, nothing is answered (R95), and the words stay on the stream (entry 4; the turn with no event listed is entry
2). -/
def Obligations.IncompletePacketWaits : Prop :=
  ∀ s : State,
    (∀ (arrived : List Word) (es : List Event), s.events = .command arrived :: es →
      decode s.n.toNat s.m.toNat (s.cmd ++ arrived) = .incomplete →
      step s = .next { s with events := es, cmd := s.cmd ++ arrived }) ∧
    (s.events = [] → decode s.n.toNat s.m.toNat s.cmd = .incomplete → step s = .next s)

/-- The reset input gives the state right after reset of the same hardware, whatever the state before (R280). The
environment's further events and the words already sent are no state of the block and stay; that words received and not
performed are dropped is the model's choice (entry 3). -/
def Obligations.HardwareResetGivesResetState : Prop :=
  ∀ (s : State) (es : List Event), s.events = .rst :: es →
    step s = .next { State.resetWith s.params with rsp := s.rsp, events := es }

/-- After hardware reset and after SOFT_RESET every piece of state holds the value of R51's table, and so it does in the
reset state of any hardware parameters. -/
def Obligations.ResetTable : Prop :=
  ∀ s r : State,
    r = State.resetWith s.params ∨ exec .softReset s = .next r ∨ (∃ es, s.events = .rst :: es ∧ step s = .next r) →
    (∀ k : Fin 17, r.lut[k.val] = 0x00000000#32) ∧ r.lutLoaded = false ∧
    (∀ k : Fin 16, r.code[k.val] = 0b0000#4) ∧ r.codeLoaded = false ∧
    r.n = 0 ∧ r.m = 0 ∧ r.capacity = 0 ∧ r.loopRun = false ∧ r.fault = false ∧
    (∀ k, k < s.params.capMax → r.orderAt k = BitVec.ofNat 32 k) ∧
    r.mode = 0#2 ∧ r.fr.toInt = -1 ∧ r.fis = 0 ∧ r.ci = 0 ∧ r.bi.toInt = -1 ∧
    r.sa = false ∧ r.ffh = false ∧ r.trig = false ∧ r.dispSlot = 0xFFFFFFFF#32 ∧
    r.storeBytes = 0 ∧ r.playPulse = false ∧ r.stopPulse = false

/-! ### System commands -/

/-- NOP answers OK and changes nothing (R240). -/
def Obligations.NopAnswersOk : Prop :=
  (∀ (n m : Nat) (ws : List Word), decode n m (0x00000000#32 :: ws) = .packet .nop ws) ∧
  ∀ s : State, exec .nop s = .next { s with rsp := s.rsp ++ [0x00000000#32] }

/-- SOFT_RESET, in every state, puts every piece of state at its reset value and answers OK (R241). That the streams and
the environment's further events go on is the model's reading (entry 17). -/
def Obligations.SoftResetGivesResetState : Prop :=
  (∀ (n m : Nat) (ws : List Word), decode n m (0x01000000#32 :: ws) = .packet .softReset ws) ∧
  ∀ s : State, exec .softReset s = .next
    { State.resetWith s.params with rsp := s.rsp ++ [0x00000000#32], cmd := s.cmd, events := s.events }

/-- READ_REG of a mapped number answers the value R43's table gives, of an unmapped number ERR_PARAM, and no register has
a read side effect (R242). -/
def Obligations.ReadRegReadsTheTable : Prop :=
  (∀ (n m : Nat) (reg : Word) (ws : List Word), decode n m (0x02000000#32 :: reg :: ws) = .packet (.readReg reg) ws) ∧
  ∀ (s : State) (reg v : Word), s.params.ok →
    (RegisterValue s reg v → exec (.readReg reg) s = .next { s with rsp := s.rsp ++ [0x00000000#32, v] }) ∧
    (UnmappedRegister s reg → exec (.readReg reg) s = .next { s with rsp := s.rsp ++ [0x00000006#32] })

/-- READ_REG's register map is total and R242's ranges bound it exactly: a number is answered exactly when it is not listed
as unmapped, every such number is a row of R43's table and answers that row's value, and every other number fails with
ERR_PARAM. -/
def Obligations.RegisterMapIsTotal : Prop :=
  ∀ (s : State) (reg : Word), s.params.ok →
    ((∃ v, s.readRegister reg = some v) ↔ ¬ UnmappedRegister s reg) ∧
    (¬ UnmappedRegister s reg →
      ∃ v, RegisterValue s reg v ∧ exec (.readReg reg) s = .next { s with rsp := s.rsp ++ [0x00000000#32, v] }) ∧
    (UnmappedRegister s reg → exec (.readReg reg) s = .next { s with rsp := s.rsp ++ [0x00000006#32] })

/-- STATUS: bit 0 LOOP_RUN, bit 1 LUT_LOADED, bit 2 CODE_LOADED, bit 3 GEOM_SET (1 exactly when N ≠ 0), bit 4 FAULT, bits
31:5 zero (R31). SEQ_FLAGS: bit 0 SA, bit 1 FFH, bit 2 TRIG, bits 31:3 zero (R40). -/
def Obligations.FlagViewBits : Prop :=
  ∀ s : State,
    (s.statusView.getLsbD 0 = s.loopRun ∧ s.statusView.getLsbD 1 = s.lutLoaded ∧
      s.statusView.getLsbD 2 = s.codeLoaded ∧ s.statusView.getLsbD 3 = decide (s.n ≠ 0) ∧
      s.statusView.getLsbD 4 = s.fault ∧ ∀ k, 5 ≤ k → s.statusView.getLsbD k = false) ∧
    s.seqFlagsView.getLsbD 0 = s.sa ∧ s.seqFlagsView.getLsbD 1 = s.ffh ∧ s.seqFlagsView.getLsbD 2 = s.trig ∧
      ∀ k, 3 ≤ k → s.seqFlagsView.getLsbD k = false

/-! ### The quantizer -/

/-- SET_LUT writes all seventeen breakpoints and LUT_LOADED, rejects no value, and changes nothing else (R131). -/
def Obligations.SetLutLoadsTheTable : Prop :=
  (∀ (n m : Nat) (table : Vector Word 17) (ws : List Word),
    decode n m (0x10000000#32 :: table.toList ++ ws) = .packet (.setLut table) ws) ∧
  ∀ (table : Vector Word 17) (s : State), exec (.setLut table) s =
    .next { s with lut := table, lutLoaded := true, rsp := s.rsp ++ [0x00000000#32] }

/-- QUANTIZE answers the level of `v`, which is at most 15, ERR_NOTCFG while no table was loaded, and writes no state
(R132). -/
def Obligations.QuantizeAnswersTheLevel : Prop :=
  (∀ (n m : Nat) (v : Word) (ws : List Word), decode n m (0x11000000#32 :: v :: ws) = .packet (.quantize v) ws) ∧
  ∀ (v : Word) (s : State),
    (s.lutLoaded = false → exec (.quantize v) s = .next { s with rsp := s.rsp ++ [0x00000004#32] }) ∧
    (s.lutLoaded = true → exec (.quantize v) s =
      .next { s with rsp := s.rsp ++ [0x00000000#32, (quantize s.lut v).setWidth 32] } ∧
      ((quantize s.lut v).setWidth 32).toNat ≤ 15)

/-- The level is decided by the first matching bracket in ascending k: its upper index modulo 16 if the upper end is
strictly nearer, else its lower index; without a matching bracket the level is 0 (R121). -/
def Obligations.QuantizeTakesFirstBracket : Prop :=
  ∀ (lut : Vector Word 17) (v : Word),
    (∀ k : Fin 16, bracketHolds lut v k = true → (∀ j : Fin 16, j < k → bracketHolds lut v j = false) →
      (quantize lut v).toNat =
        if (Val32.absdiff (Val32.ofBits v) (breakpoint lut k.succ)).lt
            (Val32.absdiff (Val32.ofBits v) (breakpoint lut k.castSucc)) = true
        then (k.val + 1) % 16 else k.val) ∧
    ((∀ k : Fin 16, bracketHolds lut v k = false) → (quantize lut v).toNat = 0)

/-- For every value and every table the level is at most 15 (R129). -/
def Obligations.QuantizeIsAtMostFifteen : Prop :=
  ∀ (lut : Vector Word 17) (v : Word), (quantize lut v).toNat ≤ 15

/-- The silent default of R126: for a non-decreasing table, a value equal to a breakpoint, below the table or above it has
level 0, and so have both infinities and every NaN under any table. -/
def Obligations.QuantizeDefaultsToZero : Prop :=
  ∀ (lut : Vector Word 17) (v : Word),
    (NonDecreasing lut → ∀ k : Fin 17, Val32.ofBits v = breakpoint lut k → quantize lut v = 0) ∧
    (NonDecreasing lut → (Val32.ofBits v).lt (breakpoint lut 0) = true → quantize lut v = 0) ∧
    (NonDecreasing lut → (breakpoint lut 16).lt (Val32.ofBits v) = true → quantize lut v = 0) ∧
    (Val32.ofBits v = .posInf ∨ Val32.ofBits v = .negInf ∨ Val32.ofBits v = .nan → quantize lut v = 0)

/-- Under the caller's contract at most one bracket matches; an empty or descending bracket, or one with a NaN end, never
does (R127). -/
def Obligations.AtMostOneBracketMatches : Prop :=
  ∀ (lut : Vector Word 17) (v : Word),
    (NonDecreasing lut → ∀ j k : Fin 16, bracketHolds lut v j = true → bracketHolds lut v k = true → j = k) ∧
    (∀ k : Fin 16, (breakpoint lut k.castSucc).lt (breakpoint lut k.succ) = false → bracketHolds lut v k = false)

/-- Inside a matching bracket neither distance is a NaN and both are above 0 (R123). -/
def Obligations.MatchedDistancesArePositive : Prop :=
  ∀ (lut : Vector Word 17) (v : Word) (k : Fin 16), bracketHolds lut v k = true →
    (Val32.finite 0).lt (Val32.absdiff (Val32.ofBits v) (breakpoint lut k.castSucc)) = true ∧
    (Val32.finite 0).lt (Val32.absdiff (Val32.ofBits v) (breakpoint lut k.succ)) = true

/-- Rounding the distances never reverses a decision: if the value is exactly at least as near to the lower end of its
bracket, the level is the lower index (R135). -/
def Obligations.RoundingKeepsTheLowerEnd : Prop :=
  ∀ (lut : Vector Word 17) (v : Word) (k : Fin 16) (lo z hi : Int),
    breakpoint lut k.castSucc = .finite lo → Val32.ofBits v = .finite z → breakpoint lut k.succ = .finite hi →
    lo < z → z < hi → z - lo ≤ hi - z → firstBracket lut v = some k → (quantize lut v).toNat = k.val

/-- `round32` on magnitudes (in units of 2^-149) is correct rounding to binary32 (R15): to 24 significant bits the result
is representable, no representable magnitude is nearer, and of two equally near ones it is the even one; from halfway
between the largest finite value and 2^128 on it overflows to +∞; below that it is the value of a binary32 datum.
`absdiff` rounds the exact difference of finite values, and is +∞ where one side is infinite or both are with opposite
signs (R15, R128). -/
def Obligations.RoundingIsNearestTiesToEven : Prop :=
  (∀ x : Nat, Representable (roundSignificand x) ∧
    ∀ y : Nat, Representable y →
      distance x (roundSignificand x) ≤ distance x y ∧
      (y ≠ roundSignificand x → distance x y = distance x (roundSignificand x) →
        2 * distance y (roundSignificand x) ∣ roundSignificand x)) ∧
  (∀ x : Nat,
    ((2 ^ 25 - 1) * 2 ^ 252 ≤ x → roundMagnitude x = .posInf) ∧
    (x < (2 ^ 25 - 1) * 2 ^ 252 → roundMagnitude x = .finite (roundSignificand x : Int) ∧
      ∃ w : Word, Val32.ofBits w = .finite (roundSignificand x : Int))) ∧
  (∀ a b : Int, Val32.absdiff (.finite a) (.finite b) = roundMagnitude (a - b).natAbs) ∧
  (∀ a : Int, Val32.absdiff (.finite a) .posInf = .posInf ∧ Val32.absdiff (.finite a) .negInf = .posInf ∧
    Val32.absdiff .posInf (.finite a) = .posInf ∧ Val32.absdiff .negInf (.finite a) = .posInf) ∧
  Val32.absdiff .posInf .negInf = .posInf ∧ Val32.absdiff .negInf .posInf = .posInf

/-! ### The code table -/

/-- SET_CODE loads entry L from nibble L of the payload, low nibble first, sets CODE_LOADED, and changes nothing else
(R143). -/
def Obligations.SetCodeLoadsTheNibbles : Prop :=
  (∀ (n m : Nat) (c0 c1 : Word) (ws : List Word),
    decode n m (0x18000000#32 :: c0 :: c1 :: ws) = .packet (.setCode c0 c1) ws) ∧
  ∀ (c0 c1 : Word) (s : State), ∃ table : Vector Nibble 16,
    exec (.setCode c0 c1) s =
      .next { s with code := table, codeLoaded := true, rsp := s.rsp ++ [0x00000000#32] } ∧
    (∀ L : Fin 16, table[L.val] =
      if L.val < 8 then c0.extractLsb' (4 * L.val) 4 else c1.extractLsb' (4 * (L.val - 8)) 4)

/-- CODE answers CODE[level] for level 0..15, ERR_LEVEL for 16..31, ERR_NOTCFG while no table was loaded, and writes no
state (R145). -/
def Obligations.CodeAnswersTheEntry : Prop :=
  (∀ (n m : Nat) (level : Level) (ws : List Word),
    decode n m ((0x190000#24 ++ 0#3 ++ level) :: ws) = .packet (.code level) ws) ∧
  ∀ (level : Level) (s : State),
    (s.codeLoaded = false → exec (.code level) s = .next { s with rsp := s.rsp ++ [0x00000004#32] }) ∧
    (s.codeLoaded = true → 15 < level.toNat →
      exec (.code level) s = .next { s with rsp := s.rsp ++ [0x00000007#32] }) ∧
    (s.codeLoaded = true → ∀ h : level.toNat < 16, exec (.code level) s =
      .next { s with rsp := s.rsp ++ [0x00000000#32, s.code[level.toNat].setWidth 32] })

/-! ### The packer -/

/-- The planes and the 24 colour bits correspond one to one, in ascending order of channel and bit, and the corners and
the code bits too (R151, R153). -/
def Obligations.PlaneAndCornerMaps : Prop :=
  (∀ p, p < 24 → colorChannel p < 3 ∧ bitOffset p < 8 ∧ 8 * colorChannel p + bitOffset p = p) ∧
  (∀ c b, c < 3 → b < 8 → colorChannel (8 * c + b) = c ∧ bitOffset (8 * c + b) = b) ∧
  kmap 0 1 = 0 ∧ kmap 0 0 = 1 ∧ kmap 1 1 = 2 ∧ kmap 1 0 = 3

/-- PACK with its conditions met succeeds; every bit of every colour byte of the slot is as R160 gives it, every alpha
byte is 255 (R155), and nothing outside the slot changes. -/
def Obligations.PackWritesTheBitPlanes : Prop :=
  ∀ (s : State) (clr : Bool) (planes : BitVec 8) (dst : Word) (phase : List Word),
    Memory.wf s.fs = true → phase.length = planes.toNat * s.n.toNat * s.m.toNat →
    s.n ≠ 0 → s.lutLoaded = true → s.codeLoaded = true → planes.toNat ≤ 24 → dst.toNat < s.capacity.toNat →
    ∃ t : State, exec (.pack clr planes dst phase) s = .next t ∧
      t = { s with fs := t.fs, rsp := s.rsp ++ [0x00000000#32] } ∧
      (∀ a, ¬ (s.slotAddr dst.toNat ≤ a ∧ a < s.slotAddr dst.toNat + s.frameBytes) → t.byteAt a = s.byteAt a) ∧
      ∀ x y, x < s.width → y < s.height →
        t.byteAt (s.pixelAddr dst.toNat x y 3) = 255#8 ∧
        ∀ c b, c < 3 → b < 8 →
          (t.byteAt (s.pixelAddr dst.toNat x y c)).getLsbD b =
            ((!clr && (s.byteAt (s.pixelAddr dst.toNat x y c)).getLsbD b) ||
              (decide (8 * c + b < planes.toNat) &&
                (s.phaseCode phase (8 * c + b) (x / 2) (y / 2)).getLsbD (2 * (x % 2) + (1 - y % 2))))

/-- PACK's failures in R252's order: ERR_NOTCFG, then ERR_PLANES, then ERR_RANGE, each changing no state (R165, R256). -/
def Obligations.PackFailsInOrder : Prop :=
  ∀ (s : State) (clr : Bool) (planes : BitVec 8) (dst : Word) (phase : List Word),
    phase.length = planes.toNat * s.n.toNat * s.m.toNat →
    ((s.n = 0 ∨ s.lutLoaded = false ∨ s.codeLoaded = false) →
      exec (.pack clr planes dst phase) s = .next { s with rsp := s.rsp ++ [0x00000004#32] }) ∧
    (s.n ≠ 0 → s.lutLoaded = true → s.codeLoaded = true → 24 < planes.toNat →
      exec (.pack clr planes dst phase) s = .next { s with rsp := s.rsp ++ [0x00000003#32] }) ∧
    (s.n ≠ 0 → s.lutLoaded = true → s.codeLoaded = true → planes.toNat ≤ 24 → s.capacity.toNat ≤ dst.toNat →
      exec (.pack clr planes dst phase) s = .next { s with rsp := s.rsp ++ [0x00000002#32] })

/-- The sequential loops of R158 and the closed form of R160 give the same frame (R161). -/
def Obligations.ScalarPackEqualsClosedForm : Prop :=
  ∀ (clr : Bool) (codes : List Nibble) (planes n m : Nat) (frame : List Byte),
    planes ≤ 24 → frame.length = 16 * n * m →
    packScalar clr codes planes n m frame = packInto clr codes planes n m frame

/-- The data-parallel form, 16×16 tiles of work items, and the sequential loops give byte-identical frames (R162). -/
def Obligations.TiledPackEqualsScalarPack : Prop :=
  ∀ (clr : Bool) (codes : List Nibble) (planes n m : Nat) (frame : List Byte),
    planes ≤ 24 → frame.length = 16 * n * m →
    packTiled clr codes planes n m frame = packScalar clr codes planes n m frame

/-- Reading the four corners of a block back gives exactly the plane's code after a clearing pack, and the OR of that code
with what was there after an accumulating one (R163, R154). -/
def Obligations.PackedBlockReadsBackTheCode : Prop :=
  ∀ (codes : List Nibble) (planes n m p i j : Nat) (frame : List Byte),
    planes ≤ 24 → frame.length = 16 * n * m → p < planes → i < n → j < m →
    readBackCode n p i j (packInto true codes planes n m frame) = codeAt codes n m p i j ∧
    readBackCode n p i j (packInto false codes planes n m frame) =
      codeAt codes n m p i j ||| readBackCode n p i j frame

/-- Two accumulating PACKs to one slot accumulate exactly the OR of both, in either order (R71). -/
def Obligations.AccumulatingPacksCommute : Prop :=
  ∀ (s : State) (p q : BitVec 8) (dst : Word) (ph qh : List Word),
    Memory.wf s.fs = true → s.n ≠ 0 → s.lutLoaded = true → s.codeLoaded = true → dst.toNat < s.capacity.toNat →
    p.toNat ≤ 24 → ph.length = p.toNat * s.n.toNat * s.m.toNat →
    q.toNat ≤ 24 → qh.length = q.toNat * s.n.toNat * s.m.toNat →
    ∃ sp sq spq sqp : State,
      exec (.pack false p dst ph) s = .next sp ∧ exec (.pack false q dst qh) s = .next sq ∧
      exec (.pack false q dst qh) sp = .next spq ∧ exec (.pack false p dst ph) sq = .next sqp ∧
      ∀ a, spq.byteAt a = sp.byteAt a ||| sq.byteAt a ∧ sqp.byteAt a = spq.byteAt a

/-! ### The frame store -/

/-- SET_GEOMETRY: ERR_BUSY while the loop runs, before ERR_PARAM for a zero or too large dimension, else N and M are set
and the store rebuilt, every byte 0xFF, and nothing else changes (R181, R182). -/
def Obligations.SetGeometryRebuilds : Prop :=
  (∀ (a b : Nat) (n m : Word) (ws : List Word),
    decode a b (0x30000000#32 :: n :: m :: ws) = .packet (.setGeometry n m) ws) ∧
  ∀ (s : State) (n m : Word), s.params.ok →
    (s.loopRun = true → exec (.setGeometry n m) s = .next { s with rsp := s.rsp ++ [0x00000005#32] }) ∧
    (s.loopRun = false → (n = 0 ∨ m = 0 ∨ s.params.nMax < n.toNat ∨ s.params.mMax < m.toNat) →
      exec (.setGeometry n m) s = .next { s with rsp := s.rsp ++ [0x00000006#32] }) ∧
    (s.loopRun = false → 1 ≤ n.toNat → n.toNat ≤ s.params.nMax → 1 ≤ m.toNat → m.toNat ≤ s.params.mMax →
      ∃ t : State, exec (.setGeometry n m) s = .next t ∧
        t = { s with n := t.n, m := t.m, fs := t.fs, rsp := s.rsp ++ [0x00000000#32] } ∧
        t.n.toNat = n.toNat ∧ t.m.toNat = m.toNat ∧ t.statusView.getLsbD 3 = true ∧ ∀ a, t.byteAt a = 0xFF#8)

/-- RESIZE: ERR_BUSY while the loop runs, ERR_PARAM for 0 or above CAP_MAX, else CAPACITY is set and the store rebuilt,
every byte 0xFF, and ORDER and the playback state stay (R183). -/
def Obligations.ResizeRebuilds : Prop :=
  (∀ (a b : Nat) (cap : Word) (ws : List Word), decode a b (0x31000000#32 :: cap :: ws) = .packet (.resize cap) ws) ∧
  ∀ (s : State) (cap : Word),
    (s.loopRun = true → exec (.resize cap) s = .next { s with rsp := s.rsp ++ [0x00000005#32] }) ∧
    (s.loopRun = false → (cap = 0 ∨ s.params.capMax < cap.toNat) →
      exec (.resize cap) s = .next { s with rsp := s.rsp ++ [0x00000006#32] }) ∧
    (s.loopRun = false → 1 ≤ cap.toNat → cap.toNat ≤ s.params.capMax →
      ∃ t : State, exec (.resize cap) s = .next t ∧
        t = { s with capacity := cap, fs := t.fs, rsp := s.rsp ++ [0x00000000#32] } ∧ ∀ a, t.byteAt a = 0xFF#8)

/-- INSERT's failures: ERR_PARAM for a reserved layout, before ERR_RANGE where offset + count, formed without wrap-around,
exceeds CAPACITY (R185, R252). -/
def Obligations.InsertFailsInOrder : Prop :=
  ∀ (s : State) (layout : BitVec 2) (offset count : Word) (frames : List Word),
    Instr.wf s.n.toNat s.m.toNat (.insert layout offset count frames) = true →
    (2 ≤ layout.toNat →
      exec (.insert layout offset count frames) s = .next { s with rsp := s.rsp ++ [0x00000006#32] }) ∧
    (layout.toNat < 2 → s.capacity.toNat < offset.toNat + count.toNat →
      exec (.insert layout offset count frames) s = .next { s with rsp := s.rsp ++ [0x00000002#32] })

/-- INSERT of RGBA frames stores byte r of frame f verbatim at byte r of slot offset + f, and changes nothing outside
those slots (R185, R186, R65). -/
def Obligations.InsertStoresRgbaFrames : Prop :=
  ∀ (s : State) (offset count : Word) (frames : List Word),
    Memory.wf s.fs = true → frames.length = count.toNat * (4 * s.n.toNat * s.m.toNat) →
    offset.toNat + count.toNat ≤ s.capacity.toNat →
    ∃ t : State, exec (.insert 1#2 offset count frames) s = .next t ∧
      t = { s with fs := t.fs, rsp := s.rsp ++ [0x00000000#32] } ∧
      (∀ f r, f < count.toNat → r < s.frameBytes →
        t.byteAt (s.slotAddr (offset.toNat + f) + r) = streamByte frames (f * s.frameBytes + r)) ∧
      ∀ a, ¬ (s.slotAddr offset.toNat ≤ a ∧ a < s.slotAddr (offset.toNat + count.toNat)) → t.byteAt a = s.byteAt a

/-- INSERT of RGB frames stores the three colour bytes of every pixel and alpha 0x00, and changes nothing outside those
slots (R185, R186, R66). -/
def Obligations.InsertStoresRgbFrames : Prop :=
  ∀ (s : State) (offset count : Word) (frames : List Word),
    Memory.wf s.fs = true → frames.length = count.toNat * (3 * s.n.toNat * s.m.toNat) →
    offset.toNat + count.toNat ≤ s.capacity.toNat →
    ∃ t : State, exec (.insert 0#2 offset count frames) s = .next t ∧
      t = { s with fs := t.fs, rsp := s.rsp ++ [0x00000000#32] } ∧
      (∀ f q, f < count.toNat → q < s.width * s.height →
        (∀ c, c < 3 → t.byteAt (s.slotAddr (offset.toNat + f) + 4 * q + c) =
          streamByte frames (f * (3 * (s.width * s.height)) + 3 * q + c)) ∧
        t.byteAt (s.slotAddr (offset.toNat + f) + 4 * q + 3) = 0x00#8) ∧
      ∀ a, ¬ (s.slotAddr offset.toNat ≤ a ∧ a < s.slotAddr (offset.toNat + count.toNat)) → t.byteAt a = s.byteAt a

/-- SET_AT is identical in effect to INSERT with layout = 1, offset = index, count = 1; it stores the frame's bytes in the
slot and nothing elsewhere; above the last slot it fails with ERR_RANGE (R188). -/
def Obligations.SetAtStoresTheFrame : Prop :=
  ∀ (s : State) (index : Word) (frame : List Word), frame.length = 4 * s.n.toNat * s.m.toNat →
    (∀ ws, decode s.n.toNat s.m.toNat (0x33000000#32 :: index :: frame ++ ws) = .packet (.setAt index frame) ws) ∧
    exec (.setAt index frame) s = exec (.insert 1#2 index 1#32 frame) s ∧
    (s.capacity.toNat ≤ index.toNat →
      exec (.setAt index frame) s = .next { s with rsp := s.rsp ++ [0x00000002#32] }) ∧
    (Memory.wf s.fs = true → index.toNat < s.capacity.toNat →
      ∃ t : State, exec (.setAt index frame) s = .next t ∧
        t = { s with fs := t.fs, rsp := s.rsp ++ [0x00000000#32] } ∧
        (∀ r, r < s.frameBytes → t.byteAt (s.slotAddr index.toNat + r) = streamByte frame r) ∧
        ∀ a, ¬ (s.slotAddr index.toNat ≤ a ∧ a < s.slotAddr index.toNat + s.frameBytes) → t.byteAt a = s.byteAt a)

/-- GET answers the slot as 4·N·M words, each the four bytes `A ++ B ++ G ++ R` of a pixel in address order, and writes
no state; above the last slot it fails with ERR_RANGE (R189, R65). -/
def Obligations.GetAnswersTheSlot : Prop :=
  (∀ (a b : Nat) (index : Word) (ws : List Word), decode a b (0x34000000#32 :: index :: ws) = .packet (.get index) ws) ∧
  ∀ (s : State) (index : Word),
    (s.capacity.toNat ≤ index.toNat → exec (.get index) s = .next { s with rsp := s.rsp ++ [0x00000002#32] }) ∧
    (index.toNat < s.capacity.toNat →
      ∃ data : List Word, exec (.get index) s = .next { s with rsp := s.rsp ++ 0x00000000#32 :: data } ∧
        data.length = 4 * s.n.toNat * s.m.toNat ∧
        ∀ t, t < 4 * s.n.toNat * s.m.toNat →
          data.getD t 0 =
            s.byteAt (s.slotAddr index.toNat + 4 * t + 3) ++ s.byteAt (s.slotAddr index.toNat + 4 * t + 2) ++
              s.byteAt (s.slotAddr index.toNat + 4 * t + 1) ++ s.byteAt (s.slotAddr index.toNat + 4 * t))

/-- What SET_AT stored, GET answers, word for word (R188, R189). -/
def Obligations.GetAnswersWhatSetAtStored : Prop :=
  ∀ (s : State) (index : Word) (frame : List Word),
    Memory.wf s.fs = true → frame.length = 4 * s.n.toNat * s.m.toNat → index.toNat < s.capacity.toNat →
    ∃ t u : State, exec (.setAt index frame) s = .next t ∧ exec (.get index) t = .next u ∧
      u = { t with rsp := t.rsp ++ 0x00000000#32 :: frame }

/-! ### The sequencer -/

/-- SET_ORDER replaces the first `len` entries and keeps the others, values unchecked; a length above CAPACITY fails with
ERR_RANGE (R201). -/
def Obligations.SetOrderWritesThePrefix : Prop :=
  ∀ (s : State) (len : Word) (entries : List Word), entries.length = len.toNat →
    (∀ a b ws, decode a b (0x40000000#32 :: len :: entries ++ ws) = .packet (.setOrder len entries) ws) ∧
    (s.capacity.toNat < len.toNat →
      exec (.setOrder len entries) s = .next { s with rsp := s.rsp ++ [0x00000002#32] }) ∧
    (Cells.wf orderIdentity s.order = true → len.toNat ≤ s.capacity.toNat →
      ∃ t : State, exec (.setOrder len entries) s = .next t ∧
        t = { s with order := t.order, rsp := s.rsp ++ [0x00000000#32] } ∧
        ∀ k, t.orderAt k = if k < len.toNat then entries.getD k 0 else s.orderAt k)

/-- START_LOOP sets LOOP_RUN, or fails with ERR_NOTCFG without a capacity or a geometry (R204). -/
def Obligations.StartLoopRuns : Prop :=
  (∀ (n m : Nat) (ws : List Word), decode n m (0x42000000#32 :: ws) = .packet .startLoop ws) ∧
  ∀ s : State,
    (s.capacity = 0 ∨ s.n = 0 → exec .startLoop s = .next { s with rsp := s.rsp ++ [0x00000004#32] }) ∧
    (s.capacity ≠ 0 → s.n ≠ 0 →
      exec .startLoop s = .next { s with loopRun := true, rsp := s.rsp ++ [0x00000000#32] })

/-- STOP_LOOP clears LOOP_RUN and freezes everything else as it is (R205). -/
def Obligations.StopLoopFreezes : Prop :=
  (∀ (n m : Nat) (ws : List Word), decode n m (0x43000000#32 :: ws) = .packet .stopLoop ws) ∧
  ∀ s : State, exec .stopLoop s = .next { s with loopRun := false, rsp := s.rsp ++ [0x00000000#32] }

/-- START_SEQ sets FIS, FR, SA and FFH and nothing else, or fails with ERR_RANGE above CAPACITY (R206). -/
def Obligations.StartSeqArmsTheSequence : Prop :=
  (∀ (a b : Nat) (n : Word) (ws : List Word), decode a b (0x41000000#32 :: n :: ws) = .packet (.startSeq n) ws) ∧
  ∀ (s : State) (n : Word),
    (s.capacity.toNat < n.toNat → exec (.startSeq n) s = .next { s with rsp := s.rsp ++ [0x00000002#32] }) ∧
    (n.toNat ≤ s.capacity.toNat → exec (.startSeq n) s =
      .next { s with fis := n, fr := n, sa := true, ffh := true, rsp := s.rsp ++ [0x00000000#32] })

/-- A tick with LOOP_RUN = 0 changes no register, presents nothing and gives no pulse (R209). -/
def Obligations.StoppedTickDoesNothing : Prop :=
  ∀ (s : State) (es : List Event), s.loopRun = false → s.events = .tick :: es →
    step s = .next { s with events := es, present := none, playPulse := false, stopPulse := false }

/-- A tick with LOOP_RUN = 1, in a mode that exists and with a store, performs R210's five steps: every register it
writes, the frame presented and the two pulses, and nothing else changes. -/
def Obligations.TickPerformsTheFiveSteps : Prop :=
  ∀ (s : State) (es : List Event), s.loopRun = true → s.mode.toNat ≤ 1 → 1 ≤ s.capacity.toNat →
    s.events = .tick :: es →
    ∃ t : State, step s = .next t ∧
      t = { s with events := es, mode := t.mode, ci := t.ci, fr := t.fr, bi := t.bi, sa := t.sa, ffh := t.ffh,
                   trig := t.trig, dispSlot := t.dispSlot, present := t.present, playPulse := t.playPulse,
                   stopPulse := t.stopPulse } ∧
      ∃ (play stop advances trig1 : Bool) (ci1 : Nat),
        play = (s.sa && decide (s.fr.toInt = (s.fis.toNat : Int)) && !s.ffh) ∧
        ci1 = (if play then 0 else s.ci.toNat) ∧
        trig1 = (s.trig || play) ∧
        advances = (!s.ffh && decide (0 ≤ s.fr.toInt)) ∧
        t.fr.toInt = (if advances then s.fr.toInt - 1 else s.fr.toInt) ∧
        stop = (decide (t.fr.toInt < 0) && s.sa) ∧
        t.dispSlot.toNat = (s.orderAt (ci1 % s.capacity.toNat)).toNat % s.capacity.toNat ∧
        t.ci.toNat = (if advances then min (ci1 + 1) (s.capacity.toNat - 1) else ci1) ∧
        t.bi.toInt = (if stop || !trig1 then -1 else min (s.bi.toInt + 1) (2 ^ 31 - 1)) ∧
        t.mode = (if stop then modeIdle else if play then modePlaying else s.mode) ∧
        t.sa = (s.sa && !stop) ∧ t.ffh = false ∧ t.trig = (trig1 && !stop) ∧
        t.playPulse = play ∧ t.stopPulse = stop ∧
        t.present = some ((List.range s.frameBytes).map fun r => s.byteAt (s.slotAddr t.dispSlot.toNat + r))

/-- An undisturbed sequence of n ≥ 1 frames from Idle (R218): tick 1 shows the slot at the old CI; ticks 2 to n+1 show
ORDER[0] to ORDER[n-1] with the trigger up and BI = 0 to n-1, the play pulse on the first of them; tick n+2 shows
ORDER[min(n, CAPACITY-1)], leaves TRIG = 0, BI = -1, Idle and CI = min(n+1, CAPACITY-1), and gives the stop pulse; every
tick afterwards shows the slot of that final CI. -/
def Obligations.SequenceShowsTheOrder : Prop :=
  ∀ (s : State) (n : Word), s.R42 → s.loopRun = true → s.sa = false → 1 ≤ n.toNat → n.toNat ≤ s.capacity.toNat →
    ∃ armed : State, exec (.startSeq n) s = .next armed ∧
      (∃ t, ticksFrom 1 armed = some t ∧
        t.dispSlot.toNat = (s.orderAt (s.ci.toNat % s.capacity.toNat)).toNat % s.capacity.toNat ∧
        t.trig = false ∧ t.bi.toInt = -1 ∧ t.mode = modeIdle ∧ t.playPulse = false ∧ t.stopPulse = false) ∧
      (∀ q, q < n.toNat → ∃ t, ticksFrom (q + 2) armed = some t ∧
        t.dispSlot.toNat = (s.orderAt q).toNat % s.capacity.toNat ∧
        t.trig = true ∧ t.bi.toInt = q ∧ t.mode = modePlaying ∧
        t.playPulse = decide (q = 0) ∧ t.stopPulse = false) ∧
      (∃ t, ticksFrom (n.toNat + 2) armed = some t ∧
        t.dispSlot.toNat = (s.orderAt (min n.toNat (s.capacity.toNat - 1))).toNat % s.capacity.toNat ∧
        t.trig = false ∧ t.bi.toInt = -1 ∧ t.mode = modeIdle ∧ t.sa = false ∧
        t.ci.toNat = min (n.toNat + 1) (s.capacity.toNat - 1) ∧ t.playPulse = false ∧ t.stopPulse = true) ∧
      (∀ j, ∃ t, ticksFrom (n.toNat + 3 + j) armed = some t ∧
        t.dispSlot.toNat =
          (s.orderAt (min (n.toNat + 1) (s.capacity.toNat - 1))).toNat % s.capacity.toNat ∧
        t.trig = false ∧ t.bi.toInt = -1 ∧ t.mode = modeIdle ∧ t.playPulse = false ∧ t.stopPulse = false)

/-- START_SEQ of any n ≤ CAPACITY, 0 included, while a sequence is active (R207(c), R207(b)): the next tick is a hold tick
showing the frame at the current CI, TRIG and MODE keeping their values; the one after is a new start tick, showing
ORDER[0] with a play pulse. With n ≥ 1 the trigger is up after it and BI goes on counting; with n = 0 the same tick gives
the stop pulse too and is back in Idle. -/
def Obligations.RestartHoldsThenStartsAgain : Prop :=
  ∀ (s : State) (n : Word), s.R42 → s.loopRun = true → s.sa = true → n.toNat ≤ s.capacity.toNat →
    ∃ armed t u : State, exec (.startSeq n) s = .next armed ∧
      ticksFrom 1 armed = some t ∧
      t.dispSlot.toNat = (s.orderAt (s.ci.toNat % s.capacity.toNat)).toNat % s.capacity.toNat ∧
      t.trig = s.trig ∧ t.mode = s.mode ∧ t.ci = s.ci ∧ t.playPulse = false ∧ t.stopPulse = false ∧
      t.bi.toInt = (if s.trig then min (s.bi.toInt + 1) (2 ^ 31 - 1) else -1) ∧
      ticksFrom 2 armed = some u ∧ u.dispSlot.toNat = (s.orderAt 0).toNat % s.capacity.toNat ∧
      u.playPulse = true ∧ u.fis = n ∧ u.fr.toInt = (n.toNat : Int) - 1 ∧
      (1 ≤ n.toNat → u.trig = true ∧ u.mode = modePlaying ∧ u.sa = true ∧ u.stopPulse = false ∧
        u.bi.toInt = min (t.bi.toInt + 1) (2 ^ 31 - 1)) ∧
      (n = 0 → u.trig = false ∧ u.mode = modeIdle ∧ u.sa = false ∧ u.stopPulse = true ∧ u.bi.toInt = -1)

/-- START_SEQ with n = 0 from Idle: after the hold tick one tick gives both pulses, shows ORDER[0] and is back in Idle;
the trigger is never observed high (R207(b)). -/
def Obligations.EmptySequencePulsesOnce : Prop :=
  ∀ s : State, s.R42 → s.loopRun = true → s.sa = false →
    ∃ armed t u : State, exec (.startSeq 0#32) s = .next armed ∧
      ticksFrom 1 armed = some t ∧ t.trig = false ∧ t.bi.toInt = -1 ∧ t.playPulse = false ∧ t.stopPulse = false ∧
      ticksFrom 2 armed = some u ∧ u.dispSlot.toNat = (s.orderAt 0).toNat % s.capacity.toNat ∧
      u.playPulse = true ∧ u.stopPulse = true ∧ u.trig = false ∧ u.bi.toInt = -1 ∧ u.fr.toInt = -1 ∧
      u.mode = modeIdle ∧ u.sa = false

/-! ### The whole machine -/

/-- R42 holds after reset, for all parameters R9 allows, and so does the whole invariant (R42). -/
def Obligations.ResetMeetsTheInvariant : Prop :=
  (∀ p : Params, p.ok → (State.resetWith p).Inv) ∧ State.reset.Inv

/-- R42 is preserved by every command, every tick and every reset, from every state that meets it (R42). -/
def Obligations.StepKeepsR42 : Prop :=
  ∀ s t : State, s.R42 → step s = .next t → t.R42

/-- The whole invariant is preserved by every step: R42, the bounds of CI and DISP_SLOT (R36, R40), the frame store
canonical and inside its CAPACITY·FB bytes (R41), the order table canonical and inside its CAP_MAX entries (R32). -/
def Obligations.StepKeepsTheInvariant : Prop :=
  ∀ s t : State, s.Inv → step s = .next t → t.Inv

/-- From every state that meets R42 the step ends in a next state: no tick fails and no packet is refused (R258, R95). -/
def Obligations.StepNeverStops : Prop :=
  ∀ s : State, s.R42 → SafeStep s

/-- A command that answers a status other than OK changes no state whatever: only its status word is sent (R256). -/
def Obligations.FailedCommandChangesNothing : Prop :=
  ∀ (i : Instr) (s t : State) (status : Word) (data : List Word), exec i s = .next t →
    t.rsp = s.rsp ++ status :: data → status ≠ 0 → data = [] ∧ t = { s with rsp := s.rsp ++ [status] }

/-- Every command with a framed payload completes and sends exactly one response: a status word with an R250 code, then,
on success only, R93's number of data words (R96). -/
def Obligations.EveryCommandAnswersOnce : Prop :=
  ∀ (i : Instr) (s : State), i.wf s.n.toNat s.m.toNat = true →
    ∃ (t : State) (status : Word) (data : List Word), exec i s = .next t ∧ t.rsp = s.rsp ++ status :: data ∧
      status.toNat ≤ 7 ∧ (status = 0 → data.length = responseWords i s.n.toNat s.m.toNat) ∧
      (status ≠ 0 → data = [])

/-- A record whose payload is not R93's is no packet and is never performed (R95, entry 10): it is refused by name. -/
def Obligations.MisframedRecordIsRefused : Prop :=
  ∀ (i : Instr) (s : State), i.wf s.n.toNat s.m.toNat = false → exec i s = .refused .misframed

/-- The tables change only by their own commands and reset (R21, R24), the geometry and the capacity only by SET_GEOMETRY,
RESIZE and reset (R27, R28), LOOP_RUN only by START_LOOP, STOP_LOOP and reset (R29), ORDER only by SET_ORDER and reset
(R32), and FAULT is never set (R259). -/
def Obligations.RegistersHaveTheirOwnWriters : Prop :=
  ∀ (i : Instr) (s t : State), exec i s = .next t → i ≠ .softReset →
    ((∀ table, i ≠ .setLut table) → t.lut = s.lut ∧ t.lutLoaded = s.lutLoaded) ∧
    ((∀ c0 c1, i ≠ .setCode c0 c1) → t.code = s.code ∧ t.codeLoaded = s.codeLoaded) ∧
    ((∀ n m, i ≠ .setGeometry n m) → t.n = s.n ∧ t.m = s.m) ∧
    ((∀ cap, i ≠ .resize cap) → t.capacity = s.capacity) ∧
    (i ≠ .startLoop → i ≠ .stopLoop → t.loopRun = s.loopRun) ∧
    ((∀ len entries, i ≠ .setOrder len entries) → t.order = s.order) ∧
    t.fault = s.fault ∧ t.params = s.params

/-- The two agents' shares of the state (R267): a tick writes only MODE, CI, FR, BI, SA, FFH, TRIG, DISP_SLOT and its
outputs, and of these the commands other than SOFT_RESET write none, but for START_SEQ, which writes FIS, FR, SA, FFH. -/
def Obligations.AgentsWriteTheirOwnState : Prop :=
  (∀ s t : State, displayTick s = .next t →
    t = { s with mode := t.mode, ci := t.ci, fr := t.fr, bi := t.bi, sa := t.sa, ffh := t.ffh, trig := t.trig,
                 dispSlot := t.dispSlot, present := t.present, playPulse := t.playPulse, stopPulse := t.stopPulse }) ∧
  (∀ (i : Instr) (s t : State), exec i s = .next t → i ≠ .softReset →
    t.mode = s.mode ∧ t.ci = s.ci ∧ t.bi = s.bi ∧ t.trig = s.trig ∧ t.dispSlot = s.dispSlot ∧
      t.playPulse = s.playPulse ∧ t.stopPulse = s.stopPulse ∧ t.present = s.present ∧
      ((∀ n, i ≠ .startSeq n) → t.fis = s.fis ∧ t.fr = s.fr ∧ t.sa = s.sa ∧ t.ffh = s.ffh))

/-- No event writes the parameters: they are fixed for the life of the hardware (R52). -/
def Obligations.StepKeepsTheParameters : Prop :=
  ∀ s t : State, step s = .next t → t.params = s.params
end

