-- ==== Sys2Proof/Laws/Cells.lean ====
section
/-! SUPPORT. The laws of the sparse arrays: read after write, and that every operation keeps the canonical form. -/

namespace Sys2Proof.Machine

variable {w : Nat} {d : Nat → BitVec w}

theorem Cells.rising_mono {lo lo' : Nat} {m : List (Nat × BitVec w)} (hle : lo' ≤ lo)
    (h : Cells.rising lo m = true) : Cells.rising lo' m = true := by
  cases m with
  | nil => rfl
  | cons c t =>
    simp only [Cells.rising, Bool.and_eq_true, decide_eq_true_eq] at h ⊢
    exact ⟨by omega, h.2⟩

/-- Below the first listed index every index reads as the default. -/
theorem Cells.read_of_lt {lo a : Nat} {m : List (Nat × BitVec w)} (h : Cells.rising lo m = true) (ha : a < lo) :
    Cells.read d m a = d a := by
  cases m with
  | nil => rfl
  | cons c t =>
    simp only [Cells.rising, Bool.and_eq_true, decide_eq_true_eq] at h
    simp [Cells.read, show a ≠ c.1 by omega, show a < c.1 by omega]

/-- A read after a write gives the value written at its index and the old value everywhere else. -/
theorem Cells.read_write {lo : Nat} {m : List (Nat × BitVec w)} (h : Cells.rising lo m = true) (a x : Nat)
    (b : BitVec w) : Cells.read d (Cells.write d m a b) x = if x = a then b else Cells.read d m x := by
  induction m generalizing lo with
  | nil =>
    simp only [Cells.write]
    split <;> rename_i hb
    · simp only [Cells.read]; split <;> simp_all
    · simp only [Cells.read]; split <;> simp
  | cons c t ih =>
    obtain ⟨k, v⟩ := c
    simp only [Cells.rising, Bool.and_eq_true, decide_eq_true_eq] at h
    simp only [Cells.write]
    split
    · rename_i hak
      split <;> rename_i hb
      · simp only [Cells.read]
        split
        · rename_i hxk
          rw [if_neg (by omega)]
        · split <;> split <;> simp_all
      · simp only [Cells.read]
        split
        · rfl
        · split
          · rename_i hxa hlt
            simp [show x ≠ k by omega, show x < k by omega]
          · rfl
    · split
      · rename_i hak
        subst hak
        split <;> rename_i hb
        · by_cases hx : x = a
          · subst hx
            rw [if_pos rfl, Cells.read_of_lt h.2 (by omega), ← hb]
          · simp only [Cells.read, if_neg hx]
            split
            · rw [Cells.read_of_lt h.2 (by omega)]
            · rfl
        · simp only [Cells.read]
          split <;> simp_all
      · rename_i h1 h2
        simp only [Cells.read]
        split
        · rename_i hxk
          rw [if_neg (by omega)]
        · split
          · rw [if_neg (by omega)]
          · exact ih h.2

/-- A write keeps the indices strictly rising. -/
theorem Cells.write_rising {lo : Nat} {m : List (Nat × BitVec w)} (h : Cells.rising lo m = true) {a : Nat}
    (ha : lo ≤ a) (b : BitVec w) : Cells.rising lo (Cells.write d m a b) = true := by
  induction m generalizing lo with
  | nil =>
    simp only [Cells.write]
    split <;> simp [Cells.rising, ha]
  | cons c t ih =>
    obtain ⟨k, v⟩ := c
    have h' := h
    simp only [Cells.rising, Bool.and_eq_true, decide_eq_true_eq] at h
    simp only [Cells.write]
    split
    · split
      · exact h'
      · simp only [Cells.rising, Bool.and_eq_true, decide_eq_true_eq]
        exact ⟨ha, by omega, h.2⟩
    · split
      · split
        · exact Cells.rising_mono (by omega) h.2
        · simp only [Cells.rising, Bool.and_eq_true, decide_eq_true_eq]
          exact ⟨ha, by subst_vars; exact h.2⟩
      · simp only [Cells.rising, Bool.and_eq_true, decide_eq_true_eq]
        exact ⟨h.1, ih h.2 (by omega)⟩

/-- Every pair after a write is an old one or the written one, which is then not the default. -/
theorem Cells.mem_write {m : List (Nat × BitVec w)} {a : Nat} {b : BitVec w} {c : Nat × BitVec w}
    (h : c ∈ Cells.write d m a b) : c ∈ m ∨ (c = (a, b) ∧ b ≠ d a) := by
  induction m with
  | nil =>
    simp only [Cells.write] at h
    split at h <;> simp_all
  | cons e t ih =>
    obtain ⟨k, v⟩ := e
    simp only [Cells.write] at h
    split at h
    · split at h
      · exact .inl h
      · rcases List.mem_cons.mp h with h | h
        · exact .inr ⟨h, ‹_›⟩
        · exact .inl h
    · split at h
      · split at h
        · exact .inl (List.mem_cons_of_mem _ h)
        · rcases List.mem_cons.mp h with h | h
          · exact .inr ⟨h, ‹_›⟩
          · exact .inl (List.mem_cons_of_mem _ h)
      · rcases List.mem_cons.mp h with h | h
        · exact .inl (h ▸ List.mem_cons_self)
        · exact (ih h).imp_left (List.mem_cons_of_mem _)

/-- A write keeps the canonical form. -/
theorem Cells.write_wf {m : List (Nat × BitVec w)} (h : Cells.wf d m = true) (a : Nat) (b : BitVec w) :
    Cells.wf d (Cells.write d m a b) = true := by
  simp only [Cells.wf, Bool.and_eq_true, List.all_eq_true, bne_iff_ne] at h ⊢
  refine ⟨Cells.write_rising h.1 (Nat.zero_le a) b, fun c hc => ?_⟩
  rcases Cells.mem_write hc with hc | ⟨rfl, hb⟩
  · exact h.2 c hc
  · exact hb

/-- A write inside the bound keeps every index inside it. -/
theorem Cells.write_within {m : List (Nat × BitVec w)} {size a : Nat} (h : Cells.within size m = true)
    (ha : a < size) (b : BitVec w) : Cells.within size (Cells.write d m a b) = true := by
  simp only [Cells.within, List.all_eq_true, decide_eq_true_eq] at h ⊢
  intro c hc
  rcases Cells.mem_write hc with hc | ⟨rfl, -⟩
  · exact h c hc
  · exact ha

/-- Writing a list keeps the canonical form. -/
theorem Cells.writeList_wf {m : List (Nat × BitVec w)} (h : Cells.wf d m = true) (a : Nat) (bs : List (BitVec w)) :
    Cells.wf d (Cells.writeList d m a bs) = true := by
  induction bs generalizing m a with
  | nil => exact h
  | cons b bs ih => exact ih (Cells.write_wf h a b) (a + 1)

/-- Writing a list inside the bound keeps every index inside it. -/
theorem Cells.writeList_within {m : List (Nat × BitVec w)} {size a : Nat} {bs : List (BitVec w)}
    (h : Cells.within size m = true) (ha : a + bs.length ≤ size) :
    Cells.within size (Cells.writeList d m a bs) = true := by
  induction bs generalizing m a with
  | nil => exact h
  | cons b bs ih =>
    simp only [List.length_cons] at ha
    exact ih (Cells.write_within h (by omega) b) (by omega)

/-- A read after writing a list: the list's values at its indices, the old values everywhere else. -/
theorem Cells.read_writeList {m : List (Nat × BitVec w)} (h : Cells.wf d m = true) (a x : Nat)
    (bs : List (BitVec w)) :
    Cells.read d (Cells.writeList d m a bs) x =
      if a ≤ x ∧ x < a + bs.length then bs.getD (x - a) 0 else Cells.read d m x := by
  induction bs generalizing m a with
  | nil =>
    simp only [Cells.writeList, List.length_nil, Nat.add_zero]
    rw [if_neg (by omega)]
  | cons b bs ih =>
    simp only [Cells.writeList, List.length_cons]
    rw [ih (Cells.write_wf h a b) (a + 1), Cells.read_write (lo := 0)
      (by simp only [Cells.wf, Bool.and_eq_true] at h; exact h.1)]
    by_cases hx : x = a
    · subst hx
      rw [if_neg (by omega), if_pos rfl, if_pos (by omega)]
      simp
    · rw [if_neg hx]
      by_cases hin : a + 1 ≤ x ∧ x < a + 1 + bs.length
      · rw [if_pos hin, if_pos (by omega)]
        obtain ⟨k, rfl⟩ : ∃ k, x = a + 1 + k := ⟨x - (a + 1), by omega⟩
        rw [show a + 1 + k - (a + 1) = k by omega, show a + 1 + k - a = k + 1 by omega]
        simp
      · rw [if_neg hin, if_neg (by omega)]

@[simp] theorem Cells.readList_length (m : List (Nat × BitVec w)) (a k : Nat) :
    (Cells.readList d m a k).length = k := by
  induction k generalizing a with
  | zero => rfl
  | succ k ih => simp [Cells.readList, ih]

/-- Element `q` of a read list is the value at index `a + q`. -/
theorem Cells.readList_getElem (m : List (Nat × BitVec w)) (a k q : Nat) (h : q < (Cells.readList d m a k).length) :
    (Cells.readList d m a k)[q] = Cells.read d m (a + q) := by
  induction k generalizing a q with
  | zero => simp at h
  | succ k ih =>
    cases q with
    | zero => simp [Cells.readList]
    | succ q =>
      simp only [Cells.readList, List.getElem_cons_succ]
      rw [ih, Nat.add_right_comm, Nat.add_assoc]

/-- Every write into the frame store keeps its canonical form. -/
theorem Memory.writeBytes_wf {mem : Memory} (h : Memory.wf mem = true) (a : Nat) (bs : List Byte) :
    Memory.wf (Memory.writeBytes mem a bs) = true :=
  Cells.writeList_wf h a bs

/-- A byte of the frame store after a write of several bytes. -/
theorem Memory.read_writeBytes {mem : Memory} (h : Memory.wf mem = true) (a x : Nat) (bs : List Byte) :
    Memory.read (Memory.writeBytes mem a bs) x =
      if a ≤ x ∧ x < a + bs.length then bs.getD (x - a) 0 else Memory.read mem x :=
  Cells.read_writeList h a x bs

/-- The rebuilt store is in its canonical form. -/
theorem Memory.nil_wf : Memory.wf [] = true := rfl

/-- The store of the reset state is in its canonical form. -/
theorem State.reset_fs_wf : Memory.wf State.reset.fs = true := rfl

/-- The order table of the reset state is in its canonical form. -/
theorem State.reset_order_wf : Cells.wf orderIdentity State.reset.order = true := rfl

@[simp] theorem Memory.readBytes_length (mem : Memory) (a k : Nat) : (Memory.readBytes mem a k).length = k :=
  Cells.readList_length mem a k

/-- The byte at offset `q` of a run of bytes read. -/
theorem Memory.readBytes_getElem (mem : Memory) (a k q : Nat) (h : q < (Memory.readBytes mem a k).length) :
    (Memory.readBytes mem a k)[q] = Memory.read mem (a + q) :=
  Cells.readList_getElem mem a k q h

end Sys2Proof.Machine
end

