-- ==== Sys2Proof/Laws/State.lean ====
section
/-! SUPPORT. One lemma per field per update of the state, each true by unfolding, so that no proof unfolds a record update. -/

namespace Sys2Proof.Machine

/-! ### `State.respond` -/

@[simp] theorem State.respond_params (s : State) (st : Status) (data : List Word) : (s.respond st data).params = s.params := rfl
@[simp] theorem State.respond_lut (s : State) (st : Status) (data : List Word) : (s.respond st data).lut = s.lut := rfl
@[simp] theorem State.respond_lutLoaded (s : State) (st : Status) (data : List Word) : (s.respond st data).lutLoaded = s.lutLoaded := rfl
@[simp] theorem State.respond_code (s : State) (st : Status) (data : List Word) : (s.respond st data).code = s.code := rfl
@[simp] theorem State.respond_codeLoaded (s : State) (st : Status) (data : List Word) : (s.respond st data).codeLoaded = s.codeLoaded := rfl
@[simp] theorem State.respond_n (s : State) (st : Status) (data : List Word) : (s.respond st data).n = s.n := rfl
@[simp] theorem State.respond_m (s : State) (st : Status) (data : List Word) : (s.respond st data).m = s.m := rfl
@[simp] theorem State.respond_capacity (s : State) (st : Status) (data : List Word) : (s.respond st data).capacity = s.capacity := rfl
@[simp] theorem State.respond_loopRun (s : State) (st : Status) (data : List Word) : (s.respond st data).loopRun = s.loopRun := rfl
@[simp] theorem State.respond_fault (s : State) (st : Status) (data : List Word) : (s.respond st data).fault = s.fault := rfl
@[simp] theorem State.respond_order (s : State) (st : Status) (data : List Word) : (s.respond st data).order = s.order := rfl
@[simp] theorem State.respond_mode (s : State) (st : Status) (data : List Word) : (s.respond st data).mode = s.mode := rfl
@[simp] theorem State.respond_fr (s : State) (st : Status) (data : List Word) : (s.respond st data).fr = s.fr := rfl
@[simp] theorem State.respond_fis (s : State) (st : Status) (data : List Word) : (s.respond st data).fis = s.fis := rfl
@[simp] theorem State.respond_ci (s : State) (st : Status) (data : List Word) : (s.respond st data).ci = s.ci := rfl
@[simp] theorem State.respond_bi (s : State) (st : Status) (data : List Word) : (s.respond st data).bi = s.bi := rfl
@[simp] theorem State.respond_sa (s : State) (st : Status) (data : List Word) : (s.respond st data).sa = s.sa := rfl
@[simp] theorem State.respond_ffh (s : State) (st : Status) (data : List Word) : (s.respond st data).ffh = s.ffh := rfl
@[simp] theorem State.respond_trig (s : State) (st : Status) (data : List Word) : (s.respond st data).trig = s.trig := rfl
@[simp] theorem State.respond_dispSlot (s : State) (st : Status) (data : List Word) : (s.respond st data).dispSlot = s.dispSlot := rfl
@[simp] theorem State.respond_fs (s : State) (st : Status) (data : List Word) : (s.respond st data).fs = s.fs := rfl
@[simp] theorem State.respond_playPulse (s : State) (st : Status) (data : List Word) : (s.respond st data).playPulse = s.playPulse := rfl
@[simp] theorem State.respond_stopPulse (s : State) (st : Status) (data : List Word) : (s.respond st data).stopPulse = s.stopPulse := rfl
@[simp] theorem State.respond_present (s : State) (st : Status) (data : List Word) : (s.respond st data).present = s.present := rfl
@[simp] theorem State.respond_rsp (s : State) (st : Status) (data : List Word) : (s.respond st data).rsp = s.rsp ++ (st.word :: data) := rfl
@[simp] theorem State.respond_cmd (s : State) (st : Status) (data : List Word) : (s.respond st data).cmd = s.cmd := rfl
@[simp] theorem State.respond_events (s : State) (st : Status) (data : List Word) : (s.respond st data).events = s.events := rfl

/-! ### `State.writeSlots` -/

@[simp] theorem State.writeSlots_params (s : State) (k : Nat) (bs : List Byte) : (s.writeSlots k bs).params = s.params := rfl
@[simp] theorem State.writeSlots_lut (s : State) (k : Nat) (bs : List Byte) : (s.writeSlots k bs).lut = s.lut := rfl
@[simp] theorem State.writeSlots_lutLoaded (s : State) (k : Nat) (bs : List Byte) : (s.writeSlots k bs).lutLoaded = s.lutLoaded := rfl
@[simp] theorem State.writeSlots_code (s : State) (k : Nat) (bs : List Byte) : (s.writeSlots k bs).code = s.code := rfl
@[simp] theorem State.writeSlots_codeLoaded (s : State) (k : Nat) (bs : List Byte) : (s.writeSlots k bs).codeLoaded = s.codeLoaded := rfl
@[simp] theorem State.writeSlots_n (s : State) (k : Nat) (bs : List Byte) : (s.writeSlots k bs).n = s.n := rfl
@[simp] theorem State.writeSlots_m (s : State) (k : Nat) (bs : List Byte) : (s.writeSlots k bs).m = s.m := rfl
@[simp] theorem State.writeSlots_capacity (s : State) (k : Nat) (bs : List Byte) : (s.writeSlots k bs).capacity = s.capacity := rfl
@[simp] theorem State.writeSlots_loopRun (s : State) (k : Nat) (bs : List Byte) : (s.writeSlots k bs).loopRun = s.loopRun := rfl
@[simp] theorem State.writeSlots_fault (s : State) (k : Nat) (bs : List Byte) : (s.writeSlots k bs).fault = s.fault := rfl
@[simp] theorem State.writeSlots_order (s : State) (k : Nat) (bs : List Byte) : (s.writeSlots k bs).order = s.order := rfl
@[simp] theorem State.writeSlots_mode (s : State) (k : Nat) (bs : List Byte) : (s.writeSlots k bs).mode = s.mode := rfl
@[simp] theorem State.writeSlots_fr (s : State) (k : Nat) (bs : List Byte) : (s.writeSlots k bs).fr = s.fr := rfl
@[simp] theorem State.writeSlots_fis (s : State) (k : Nat) (bs : List Byte) : (s.writeSlots k bs).fis = s.fis := rfl
@[simp] theorem State.writeSlots_ci (s : State) (k : Nat) (bs : List Byte) : (s.writeSlots k bs).ci = s.ci := rfl
@[simp] theorem State.writeSlots_bi (s : State) (k : Nat) (bs : List Byte) : (s.writeSlots k bs).bi = s.bi := rfl
@[simp] theorem State.writeSlots_sa (s : State) (k : Nat) (bs : List Byte) : (s.writeSlots k bs).sa = s.sa := rfl
@[simp] theorem State.writeSlots_ffh (s : State) (k : Nat) (bs : List Byte) : (s.writeSlots k bs).ffh = s.ffh := rfl
@[simp] theorem State.writeSlots_trig (s : State) (k : Nat) (bs : List Byte) : (s.writeSlots k bs).trig = s.trig := rfl
@[simp] theorem State.writeSlots_dispSlot (s : State) (k : Nat) (bs : List Byte) : (s.writeSlots k bs).dispSlot = s.dispSlot := rfl
@[simp] theorem State.writeSlots_fs (s : State) (k : Nat) (bs : List Byte) : (s.writeSlots k bs).fs = Memory.writeBytes s.fs (s.slotAddr k) bs := rfl
@[simp] theorem State.writeSlots_playPulse (s : State) (k : Nat) (bs : List Byte) : (s.writeSlots k bs).playPulse = s.playPulse := rfl
@[simp] theorem State.writeSlots_stopPulse (s : State) (k : Nat) (bs : List Byte) : (s.writeSlots k bs).stopPulse = s.stopPulse := rfl
@[simp] theorem State.writeSlots_present (s : State) (k : Nat) (bs : List Byte) : (s.writeSlots k bs).present = s.present := rfl
@[simp] theorem State.writeSlots_rsp (s : State) (k : Nat) (bs : List Byte) : (s.writeSlots k bs).rsp = s.rsp := rfl
@[simp] theorem State.writeSlots_cmd (s : State) (k : Nat) (bs : List Byte) : (s.writeSlots k bs).cmd = s.cmd := rfl
@[simp] theorem State.writeSlots_events (s : State) (k : Nat) (bs : List Byte) : (s.writeSlots k bs).events = s.events := rfl

/-! ### `State.rebuild` -/

@[simp] theorem State.rebuild_params (s : State) : (s.rebuild).params = s.params := rfl
@[simp] theorem State.rebuild_lut (s : State) : (s.rebuild).lut = s.lut := rfl
@[simp] theorem State.rebuild_lutLoaded (s : State) : (s.rebuild).lutLoaded = s.lutLoaded := rfl
@[simp] theorem State.rebuild_code (s : State) : (s.rebuild).code = s.code := rfl
@[simp] theorem State.rebuild_codeLoaded (s : State) : (s.rebuild).codeLoaded = s.codeLoaded := rfl
@[simp] theorem State.rebuild_n (s : State) : (s.rebuild).n = s.n := rfl
@[simp] theorem State.rebuild_m (s : State) : (s.rebuild).m = s.m := rfl
@[simp] theorem State.rebuild_capacity (s : State) : (s.rebuild).capacity = s.capacity := rfl
@[simp] theorem State.rebuild_loopRun (s : State) : (s.rebuild).loopRun = s.loopRun := rfl
@[simp] theorem State.rebuild_fault (s : State) : (s.rebuild).fault = s.fault := rfl
@[simp] theorem State.rebuild_order (s : State) : (s.rebuild).order = s.order := rfl
@[simp] theorem State.rebuild_mode (s : State) : (s.rebuild).mode = s.mode := rfl
@[simp] theorem State.rebuild_fr (s : State) : (s.rebuild).fr = s.fr := rfl
@[simp] theorem State.rebuild_fis (s : State) : (s.rebuild).fis = s.fis := rfl
@[simp] theorem State.rebuild_ci (s : State) : (s.rebuild).ci = s.ci := rfl
@[simp] theorem State.rebuild_bi (s : State) : (s.rebuild).bi = s.bi := rfl
@[simp] theorem State.rebuild_sa (s : State) : (s.rebuild).sa = s.sa := rfl
@[simp] theorem State.rebuild_ffh (s : State) : (s.rebuild).ffh = s.ffh := rfl
@[simp] theorem State.rebuild_trig (s : State) : (s.rebuild).trig = s.trig := rfl
@[simp] theorem State.rebuild_dispSlot (s : State) : (s.rebuild).dispSlot = s.dispSlot := rfl
@[simp] theorem State.rebuild_fs (s : State) : (s.rebuild).fs = [] := rfl
@[simp] theorem State.rebuild_playPulse (s : State) : (s.rebuild).playPulse = s.playPulse := rfl
@[simp] theorem State.rebuild_stopPulse (s : State) : (s.rebuild).stopPulse = s.stopPulse := rfl
@[simp] theorem State.rebuild_present (s : State) : (s.rebuild).present = s.present := rfl
@[simp] theorem State.rebuild_rsp (s : State) : (s.rebuild).rsp = s.rsp := rfl
@[simp] theorem State.rebuild_cmd (s : State) : (s.rebuild).cmd = s.cmd := rfl
@[simp] theorem State.rebuild_events (s : State) : (s.rebuild).events = s.events := rfl

/-! ### `State.writeOrder` -/

@[simp] theorem State.writeOrder_params (s : State) (e : List Word) : (s.writeOrder e).params = s.params := rfl
@[simp] theorem State.writeOrder_lut (s : State) (e : List Word) : (s.writeOrder e).lut = s.lut := rfl
@[simp] theorem State.writeOrder_lutLoaded (s : State) (e : List Word) : (s.writeOrder e).lutLoaded = s.lutLoaded := rfl
@[simp] theorem State.writeOrder_code (s : State) (e : List Word) : (s.writeOrder e).code = s.code := rfl
@[simp] theorem State.writeOrder_codeLoaded (s : State) (e : List Word) : (s.writeOrder e).codeLoaded = s.codeLoaded := rfl
@[simp] theorem State.writeOrder_n (s : State) (e : List Word) : (s.writeOrder e).n = s.n := rfl
@[simp] theorem State.writeOrder_m (s : State) (e : List Word) : (s.writeOrder e).m = s.m := rfl
@[simp] theorem State.writeOrder_capacity (s : State) (e : List Word) : (s.writeOrder e).capacity = s.capacity := rfl
@[simp] theorem State.writeOrder_loopRun (s : State) (e : List Word) : (s.writeOrder e).loopRun = s.loopRun := rfl
@[simp] theorem State.writeOrder_fault (s : State) (e : List Word) : (s.writeOrder e).fault = s.fault := rfl
@[simp] theorem State.writeOrder_order (s : State) (e : List Word) : (s.writeOrder e).order = Cells.writeList orderIdentity s.order 0 e := rfl
@[simp] theorem State.writeOrder_mode (s : State) (e : List Word) : (s.writeOrder e).mode = s.mode := rfl
@[simp] theorem State.writeOrder_fr (s : State) (e : List Word) : (s.writeOrder e).fr = s.fr := rfl
@[simp] theorem State.writeOrder_fis (s : State) (e : List Word) : (s.writeOrder e).fis = s.fis := rfl
@[simp] theorem State.writeOrder_ci (s : State) (e : List Word) : (s.writeOrder e).ci = s.ci := rfl
@[simp] theorem State.writeOrder_bi (s : State) (e : List Word) : (s.writeOrder e).bi = s.bi := rfl
@[simp] theorem State.writeOrder_sa (s : State) (e : List Word) : (s.writeOrder e).sa = s.sa := rfl
@[simp] theorem State.writeOrder_ffh (s : State) (e : List Word) : (s.writeOrder e).ffh = s.ffh := rfl
@[simp] theorem State.writeOrder_trig (s : State) (e : List Word) : (s.writeOrder e).trig = s.trig := rfl
@[simp] theorem State.writeOrder_dispSlot (s : State) (e : List Word) : (s.writeOrder e).dispSlot = s.dispSlot := rfl
@[simp] theorem State.writeOrder_fs (s : State) (e : List Word) : (s.writeOrder e).fs = s.fs := rfl
@[simp] theorem State.writeOrder_playPulse (s : State) (e : List Word) : (s.writeOrder e).playPulse = s.playPulse := rfl
@[simp] theorem State.writeOrder_stopPulse (s : State) (e : List Word) : (s.writeOrder e).stopPulse = s.stopPulse := rfl
@[simp] theorem State.writeOrder_present (s : State) (e : List Word) : (s.writeOrder e).present = s.present := rfl
@[simp] theorem State.writeOrder_rsp (s : State) (e : List Word) : (s.writeOrder e).rsp = s.rsp := rfl
@[simp] theorem State.writeOrder_cmd (s : State) (e : List Word) : (s.writeOrder e).cmd = s.cmd := rfl
@[simp] theorem State.writeOrder_events (s : State) (e : List Word) : (s.writeOrder e).events = s.events := rfl

/-! ### `State.clearOutputs` -/

@[simp] theorem State.clearOutputs_params (s : State) : (s.clearOutputs).params = s.params := rfl
@[simp] theorem State.clearOutputs_lut (s : State) : (s.clearOutputs).lut = s.lut := rfl
@[simp] theorem State.clearOutputs_lutLoaded (s : State) : (s.clearOutputs).lutLoaded = s.lutLoaded := rfl
@[simp] theorem State.clearOutputs_code (s : State) : (s.clearOutputs).code = s.code := rfl
@[simp] theorem State.clearOutputs_codeLoaded (s : State) : (s.clearOutputs).codeLoaded = s.codeLoaded := rfl
@[simp] theorem State.clearOutputs_n (s : State) : (s.clearOutputs).n = s.n := rfl
@[simp] theorem State.clearOutputs_m (s : State) : (s.clearOutputs).m = s.m := rfl
@[simp] theorem State.clearOutputs_capacity (s : State) : (s.clearOutputs).capacity = s.capacity := rfl
@[simp] theorem State.clearOutputs_loopRun (s : State) : (s.clearOutputs).loopRun = s.loopRun := rfl
@[simp] theorem State.clearOutputs_fault (s : State) : (s.clearOutputs).fault = s.fault := rfl
@[simp] theorem State.clearOutputs_order (s : State) : (s.clearOutputs).order = s.order := rfl
@[simp] theorem State.clearOutputs_mode (s : State) : (s.clearOutputs).mode = s.mode := rfl
@[simp] theorem State.clearOutputs_fr (s : State) : (s.clearOutputs).fr = s.fr := rfl
@[simp] theorem State.clearOutputs_fis (s : State) : (s.clearOutputs).fis = s.fis := rfl
@[simp] theorem State.clearOutputs_ci (s : State) : (s.clearOutputs).ci = s.ci := rfl
@[simp] theorem State.clearOutputs_bi (s : State) : (s.clearOutputs).bi = s.bi := rfl
@[simp] theorem State.clearOutputs_sa (s : State) : (s.clearOutputs).sa = s.sa := rfl
@[simp] theorem State.clearOutputs_ffh (s : State) : (s.clearOutputs).ffh = s.ffh := rfl
@[simp] theorem State.clearOutputs_trig (s : State) : (s.clearOutputs).trig = s.trig := rfl
@[simp] theorem State.clearOutputs_dispSlot (s : State) : (s.clearOutputs).dispSlot = s.dispSlot := rfl
@[simp] theorem State.clearOutputs_fs (s : State) : (s.clearOutputs).fs = s.fs := rfl
@[simp] theorem State.clearOutputs_playPulse (s : State) : (s.clearOutputs).playPulse = false := rfl
@[simp] theorem State.clearOutputs_stopPulse (s : State) : (s.clearOutputs).stopPulse = false := rfl
@[simp] theorem State.clearOutputs_present (s : State) : (s.clearOutputs).present = none := rfl
@[simp] theorem State.clearOutputs_rsp (s : State) : (s.clearOutputs).rsp = s.rsp := rfl
@[simp] theorem State.clearOutputs_cmd (s : State) : (s.clearOutputs).cmd = s.cmd := rfl
@[simp] theorem State.clearOutputs_events (s : State) : (s.clearOutputs).events = s.events := rfl

/-! ### `State.consumed` -/

@[simp] theorem State.consumed_params (s : State) (rest : List Word) : (s.consumed rest).params = s.params := rfl
@[simp] theorem State.consumed_lut (s : State) (rest : List Word) : (s.consumed rest).lut = s.lut := rfl
@[simp] theorem State.consumed_lutLoaded (s : State) (rest : List Word) : (s.consumed rest).lutLoaded = s.lutLoaded := rfl
@[simp] theorem State.consumed_code (s : State) (rest : List Word) : (s.consumed rest).code = s.code := rfl
@[simp] theorem State.consumed_codeLoaded (s : State) (rest : List Word) : (s.consumed rest).codeLoaded = s.codeLoaded := rfl
@[simp] theorem State.consumed_n (s : State) (rest : List Word) : (s.consumed rest).n = s.n := rfl
@[simp] theorem State.consumed_m (s : State) (rest : List Word) : (s.consumed rest).m = s.m := rfl
@[simp] theorem State.consumed_capacity (s : State) (rest : List Word) : (s.consumed rest).capacity = s.capacity := rfl
@[simp] theorem State.consumed_loopRun (s : State) (rest : List Word) : (s.consumed rest).loopRun = s.loopRun := rfl
@[simp] theorem State.consumed_fault (s : State) (rest : List Word) : (s.consumed rest).fault = s.fault := rfl
@[simp] theorem State.consumed_order (s : State) (rest : List Word) : (s.consumed rest).order = s.order := rfl
@[simp] theorem State.consumed_mode (s : State) (rest : List Word) : (s.consumed rest).mode = s.mode := rfl
@[simp] theorem State.consumed_fr (s : State) (rest : List Word) : (s.consumed rest).fr = s.fr := rfl
@[simp] theorem State.consumed_fis (s : State) (rest : List Word) : (s.consumed rest).fis = s.fis := rfl
@[simp] theorem State.consumed_ci (s : State) (rest : List Word) : (s.consumed rest).ci = s.ci := rfl
@[simp] theorem State.consumed_bi (s : State) (rest : List Word) : (s.consumed rest).bi = s.bi := rfl
@[simp] theorem State.consumed_sa (s : State) (rest : List Word) : (s.consumed rest).sa = s.sa := rfl
@[simp] theorem State.consumed_ffh (s : State) (rest : List Word) : (s.consumed rest).ffh = s.ffh := rfl
@[simp] theorem State.consumed_trig (s : State) (rest : List Word) : (s.consumed rest).trig = s.trig := rfl
@[simp] theorem State.consumed_dispSlot (s : State) (rest : List Word) : (s.consumed rest).dispSlot = s.dispSlot := rfl
@[simp] theorem State.consumed_fs (s : State) (rest : List Word) : (s.consumed rest).fs = s.fs := rfl
@[simp] theorem State.consumed_playPulse (s : State) (rest : List Word) : (s.consumed rest).playPulse = false := rfl
@[simp] theorem State.consumed_stopPulse (s : State) (rest : List Word) : (s.consumed rest).stopPulse = false := rfl
@[simp] theorem State.consumed_present (s : State) (rest : List Word) : (s.consumed rest).present = none := rfl
@[simp] theorem State.consumed_rsp (s : State) (rest : List Word) : (s.consumed rest).rsp = s.rsp := rfl
@[simp] theorem State.consumed_cmd (s : State) (rest : List Word) : (s.consumed rest).cmd = rest := rfl
@[simp] theorem State.consumed_events (s : State) (rest : List Word) : (s.consumed rest).events = s.events := rfl

/-! ### `State.toReset` -/

@[simp] theorem State.toReset_params (s : State) : (s.toReset).params = s.params := rfl
@[simp] theorem State.toReset_lut (s : State) : (s.toReset).lut = (State.resetWith s.params).lut := rfl
@[simp] theorem State.toReset_lutLoaded (s : State) : (s.toReset).lutLoaded = (State.resetWith s.params).lutLoaded := rfl
@[simp] theorem State.toReset_code (s : State) : (s.toReset).code = (State.resetWith s.params).code := rfl
@[simp] theorem State.toReset_codeLoaded (s : State) : (s.toReset).codeLoaded = (State.resetWith s.params).codeLoaded := rfl
@[simp] theorem State.toReset_n (s : State) : (s.toReset).n = (State.resetWith s.params).n := rfl
@[simp] theorem State.toReset_m (s : State) : (s.toReset).m = (State.resetWith s.params).m := rfl
@[simp] theorem State.toReset_capacity (s : State) : (s.toReset).capacity = (State.resetWith s.params).capacity := rfl
@[simp] theorem State.toReset_loopRun (s : State) : (s.toReset).loopRun = (State.resetWith s.params).loopRun := rfl
@[simp] theorem State.toReset_fault (s : State) : (s.toReset).fault = (State.resetWith s.params).fault := rfl
@[simp] theorem State.toReset_order (s : State) : (s.toReset).order = (State.resetWith s.params).order := rfl
@[simp] theorem State.toReset_mode (s : State) : (s.toReset).mode = (State.resetWith s.params).mode := rfl
@[simp] theorem State.toReset_fr (s : State) : (s.toReset).fr = (State.resetWith s.params).fr := rfl
@[simp] theorem State.toReset_fis (s : State) : (s.toReset).fis = (State.resetWith s.params).fis := rfl
@[simp] theorem State.toReset_ci (s : State) : (s.toReset).ci = (State.resetWith s.params).ci := rfl
@[simp] theorem State.toReset_bi (s : State) : (s.toReset).bi = (State.resetWith s.params).bi := rfl
@[simp] theorem State.toReset_sa (s : State) : (s.toReset).sa = (State.resetWith s.params).sa := rfl
@[simp] theorem State.toReset_ffh (s : State) : (s.toReset).ffh = (State.resetWith s.params).ffh := rfl
@[simp] theorem State.toReset_trig (s : State) : (s.toReset).trig = (State.resetWith s.params).trig := rfl
@[simp] theorem State.toReset_dispSlot (s : State) : (s.toReset).dispSlot = (State.resetWith s.params).dispSlot := rfl
@[simp] theorem State.toReset_fs (s : State) : (s.toReset).fs = (State.resetWith s.params).fs := rfl
@[simp] theorem State.toReset_playPulse (s : State) : (s.toReset).playPulse = (State.resetWith s.params).playPulse := rfl
@[simp] theorem State.toReset_stopPulse (s : State) : (s.toReset).stopPulse = (State.resetWith s.params).stopPulse := rfl
@[simp] theorem State.toReset_present (s : State) : (s.toReset).present = (State.resetWith s.params).present := rfl
@[simp] theorem State.toReset_rsp (s : State) : (s.toReset).rsp = s.rsp := rfl
@[simp] theorem State.toReset_cmd (s : State) : (s.toReset).cmd = s.cmd := rfl
@[simp] theorem State.toReset_events (s : State) : (s.toReset).events = s.events := rfl

/-! ### `State.hardwareReset` -/

@[simp] theorem State.hardwareReset_params (s : State) : (s.hardwareReset).params = s.params := rfl
@[simp] theorem State.hardwareReset_lut (s : State) : (s.hardwareReset).lut = (State.resetWith s.params).lut := rfl
@[simp] theorem State.hardwareReset_lutLoaded (s : State) : (s.hardwareReset).lutLoaded = (State.resetWith s.params).lutLoaded := rfl
@[simp] theorem State.hardwareReset_code (s : State) : (s.hardwareReset).code = (State.resetWith s.params).code := rfl
@[simp] theorem State.hardwareReset_codeLoaded (s : State) : (s.hardwareReset).codeLoaded = (State.resetWith s.params).codeLoaded := rfl
@[simp] theorem State.hardwareReset_n (s : State) : (s.hardwareReset).n = (State.resetWith s.params).n := rfl
@[simp] theorem State.hardwareReset_m (s : State) : (s.hardwareReset).m = (State.resetWith s.params).m := rfl
@[simp] theorem State.hardwareReset_capacity (s : State) : (s.hardwareReset).capacity = (State.resetWith s.params).capacity := rfl
@[simp] theorem State.hardwareReset_loopRun (s : State) : (s.hardwareReset).loopRun = (State.resetWith s.params).loopRun := rfl
@[simp] theorem State.hardwareReset_fault (s : State) : (s.hardwareReset).fault = (State.resetWith s.params).fault := rfl
@[simp] theorem State.hardwareReset_order (s : State) : (s.hardwareReset).order = (State.resetWith s.params).order := rfl
@[simp] theorem State.hardwareReset_mode (s : State) : (s.hardwareReset).mode = (State.resetWith s.params).mode := rfl
@[simp] theorem State.hardwareReset_fr (s : State) : (s.hardwareReset).fr = (State.resetWith s.params).fr := rfl
@[simp] theorem State.hardwareReset_fis (s : State) : (s.hardwareReset).fis = (State.resetWith s.params).fis := rfl
@[simp] theorem State.hardwareReset_ci (s : State) : (s.hardwareReset).ci = (State.resetWith s.params).ci := rfl
@[simp] theorem State.hardwareReset_bi (s : State) : (s.hardwareReset).bi = (State.resetWith s.params).bi := rfl
@[simp] theorem State.hardwareReset_sa (s : State) : (s.hardwareReset).sa = (State.resetWith s.params).sa := rfl
@[simp] theorem State.hardwareReset_ffh (s : State) : (s.hardwareReset).ffh = (State.resetWith s.params).ffh := rfl
@[simp] theorem State.hardwareReset_trig (s : State) : (s.hardwareReset).trig = (State.resetWith s.params).trig := rfl
@[simp] theorem State.hardwareReset_dispSlot (s : State) : (s.hardwareReset).dispSlot = (State.resetWith s.params).dispSlot := rfl
@[simp] theorem State.hardwareReset_fs (s : State) : (s.hardwareReset).fs = (State.resetWith s.params).fs := rfl
@[simp] theorem State.hardwareReset_playPulse (s : State) : (s.hardwareReset).playPulse = (State.resetWith s.params).playPulse := rfl
@[simp] theorem State.hardwareReset_stopPulse (s : State) : (s.hardwareReset).stopPulse = (State.resetWith s.params).stopPulse := rfl
@[simp] theorem State.hardwareReset_present (s : State) : (s.hardwareReset).present = (State.resetWith s.params).present := rfl
@[simp] theorem State.hardwareReset_rsp (s : State) : (s.hardwareReset).rsp = s.rsp := rfl
@[simp] theorem State.hardwareReset_cmd (s : State) : (s.hardwareReset).cmd = [] := rfl
@[simp] theorem State.hardwareReset_events (s : State) : (s.hardwareReset).events = s.events := rfl

/-! ### `State.placePacket` -/

@[simp] theorem State.placePacket_params (s : State) (nbits w : Nat) : (s.placePacket nbits w).params = s.params := rfl
@[simp] theorem State.placePacket_lut (s : State) (nbits w : Nat) : (s.placePacket nbits w).lut = s.lut := rfl
@[simp] theorem State.placePacket_lutLoaded (s : State) (nbits w : Nat) : (s.placePacket nbits w).lutLoaded = s.lutLoaded := rfl
@[simp] theorem State.placePacket_code (s : State) (nbits w : Nat) : (s.placePacket nbits w).code = s.code := rfl
@[simp] theorem State.placePacket_codeLoaded (s : State) (nbits w : Nat) : (s.placePacket nbits w).codeLoaded = s.codeLoaded := rfl
@[simp] theorem State.placePacket_n (s : State) (nbits w : Nat) : (s.placePacket nbits w).n = s.n := rfl
@[simp] theorem State.placePacket_m (s : State) (nbits w : Nat) : (s.placePacket nbits w).m = s.m := rfl
@[simp] theorem State.placePacket_capacity (s : State) (nbits w : Nat) : (s.placePacket nbits w).capacity = s.capacity := rfl
@[simp] theorem State.placePacket_loopRun (s : State) (nbits w : Nat) : (s.placePacket nbits w).loopRun = s.loopRun := rfl
@[simp] theorem State.placePacket_fault (s : State) (nbits w : Nat) : (s.placePacket nbits w).fault = s.fault := rfl
@[simp] theorem State.placePacket_order (s : State) (nbits w : Nat) : (s.placePacket nbits w).order = s.order := rfl
@[simp] theorem State.placePacket_mode (s : State) (nbits w : Nat) : (s.placePacket nbits w).mode = s.mode := rfl
@[simp] theorem State.placePacket_fr (s : State) (nbits w : Nat) : (s.placePacket nbits w).fr = s.fr := rfl
@[simp] theorem State.placePacket_fis (s : State) (nbits w : Nat) : (s.placePacket nbits w).fis = s.fis := rfl
@[simp] theorem State.placePacket_ci (s : State) (nbits w : Nat) : (s.placePacket nbits w).ci = s.ci := rfl
@[simp] theorem State.placePacket_bi (s : State) (nbits w : Nat) : (s.placePacket nbits w).bi = s.bi := rfl
@[simp] theorem State.placePacket_sa (s : State) (nbits w : Nat) : (s.placePacket nbits w).sa = s.sa := rfl
@[simp] theorem State.placePacket_ffh (s : State) (nbits w : Nat) : (s.placePacket nbits w).ffh = s.ffh := rfl
@[simp] theorem State.placePacket_trig (s : State) (nbits w : Nat) : (s.placePacket nbits w).trig = s.trig := rfl
@[simp] theorem State.placePacket_dispSlot (s : State) (nbits w : Nat) : (s.placePacket nbits w).dispSlot = s.dispSlot := rfl
@[simp] theorem State.placePacket_fs (s : State) (nbits w : Nat) : (s.placePacket nbits w).fs = s.fs := rfl
@[simp] theorem State.placePacket_playPulse (s : State) (nbits w : Nat) : (s.placePacket nbits w).playPulse = s.playPulse := rfl
@[simp] theorem State.placePacket_stopPulse (s : State) (nbits w : Nat) : (s.placePacket nbits w).stopPulse = s.stopPulse := rfl
@[simp] theorem State.placePacket_present (s : State) (nbits w : Nat) : (s.placePacket nbits w).present = s.present := rfl
@[simp] theorem State.placePacket_rsp (s : State) (nbits w : Nat) : (s.placePacket nbits w).rsp = s.rsp := rfl
@[simp] theorem State.placePacket_cmd (s : State) (nbits w : Nat) : (s.placePacket nbits w).cmd = tablePacket nbits w s.n.toNat s.m.toNat ++ s.cmd := rfl
@[simp] theorem State.placePacket_events (s : State) (nbits w : Nat) : (s.placePacket nbits w).events = .command [] :: s.events := rfl

/-! ### `State.resetWith` -/

@[simp] theorem State.resetWith_params (p : Params) : (State.resetWith p).params = p := rfl
@[simp] theorem State.resetWith_lut (p : Params) : (State.resetWith p).lut = Vector.replicate 17 0#32 := rfl
@[simp] theorem State.resetWith_lutLoaded (p : Params) : (State.resetWith p).lutLoaded = false := rfl
@[simp] theorem State.resetWith_code (p : Params) : (State.resetWith p).code = Vector.replicate 16 0#4 := rfl
@[simp] theorem State.resetWith_codeLoaded (p : Params) : (State.resetWith p).codeLoaded = false := rfl
@[simp] theorem State.resetWith_n (p : Params) : (State.resetWith p).n = 0#16 := rfl
@[simp] theorem State.resetWith_m (p : Params) : (State.resetWith p).m = 0#16 := rfl
@[simp] theorem State.resetWith_capacity (p : Params) : (State.resetWith p).capacity = 0#32 := rfl
@[simp] theorem State.resetWith_loopRun (p : Params) : (State.resetWith p).loopRun = false := rfl
@[simp] theorem State.resetWith_fault (p : Params) : (State.resetWith p).fault = false := rfl
@[simp] theorem State.resetWith_order (p : Params) : (State.resetWith p).order = [] := rfl
@[simp] theorem State.resetWith_mode (p : Params) : (State.resetWith p).mode = modeIdle := rfl
@[simp] theorem State.resetWith_fr (p : Params) : (State.resetWith p).fr = BitVec.ofInt 32 (-1) := rfl
@[simp] theorem State.resetWith_fis (p : Params) : (State.resetWith p).fis = 0#32 := rfl
@[simp] theorem State.resetWith_ci (p : Params) : (State.resetWith p).ci = 0#32 := rfl
@[simp] theorem State.resetWith_bi (p : Params) : (State.resetWith p).bi = BitVec.ofInt 32 (-1) := rfl
@[simp] theorem State.resetWith_sa (p : Params) : (State.resetWith p).sa = false := rfl
@[simp] theorem State.resetWith_ffh (p : Params) : (State.resetWith p).ffh = false := rfl
@[simp] theorem State.resetWith_trig (p : Params) : (State.resetWith p).trig = false := rfl
@[simp] theorem State.resetWith_dispSlot (p : Params) : (State.resetWith p).dispSlot = noSlotShown := rfl
@[simp] theorem State.resetWith_fs (p : Params) : (State.resetWith p).fs = [] := rfl
@[simp] theorem State.resetWith_playPulse (p : Params) : (State.resetWith p).playPulse = false := rfl
@[simp] theorem State.resetWith_stopPulse (p : Params) : (State.resetWith p).stopPulse = false := rfl
@[simp] theorem State.resetWith_present (p : Params) : (State.resetWith p).present = none := rfl
@[simp] theorem State.resetWith_rsp (p : Params) : (State.resetWith p).rsp = [] := rfl
@[simp] theorem State.resetWith_cmd (p : Params) : (State.resetWith p).cmd = [] := rfl
@[simp] theorem State.resetWith_events (p : Params) : (State.resetWith p).events = [] := rfl

@[simp] theorem State.respond_width (s : State) (st : Status) (data : List Word) : (s.respond st data).width = s.width := rfl
@[simp] theorem State.respond_height (s : State) (st : Status) (data : List Word) : (s.respond st data).height = s.height := rfl
@[simp] theorem State.respond_frameBytes (s : State) (st : Status) (data : List Word) : (s.respond st data).frameBytes = s.frameBytes := rfl
@[simp] theorem State.respond_storeBytes (s : State) (st : Status) (data : List Word) : (s.respond st data).storeBytes = s.storeBytes := rfl
@[simp] theorem State.respond_slotAddr (s : State) (st : Status) (data : List Word) (j : Nat) : (s.respond st data).slotAddr j = s.slotAddr j := rfl
@[simp] theorem State.respond_orderAt (s : State) (st : Status) (data : List Word) (j : Nat) : (s.respond st data).orderAt j = s.orderAt j := rfl
@[simp] theorem State.respond_byteAt (s : State) (st : Status) (data : List Word) (a : Nat) : (s.respond st data).byteAt a = s.byteAt a := rfl
@[simp] theorem State.respond_slotBytes (s : State) (st : Status) (data : List Word) (j : Nat) : (s.respond st data).slotBytes j = s.slotBytes j := rfl
@[simp] theorem State.writeSlots_width (s : State) (k : Nat) (bs : List Byte) : (s.writeSlots k bs).width = s.width := rfl
@[simp] theorem State.writeSlots_height (s : State) (k : Nat) (bs : List Byte) : (s.writeSlots k bs).height = s.height := rfl
@[simp] theorem State.writeSlots_frameBytes (s : State) (k : Nat) (bs : List Byte) : (s.writeSlots k bs).frameBytes = s.frameBytes := rfl
@[simp] theorem State.writeSlots_storeBytes (s : State) (k : Nat) (bs : List Byte) : (s.writeSlots k bs).storeBytes = s.storeBytes := rfl
@[simp] theorem State.writeSlots_slotAddr (s : State) (k : Nat) (bs : List Byte) (j : Nat) : (s.writeSlots k bs).slotAddr j = s.slotAddr j := rfl
@[simp] theorem State.writeSlots_orderAt (s : State) (k : Nat) (bs : List Byte) (j : Nat) : (s.writeSlots k bs).orderAt j = s.orderAt j := rfl
@[simp] theorem State.rebuild_width (s : State) : (s.rebuild).width = s.width := rfl
@[simp] theorem State.rebuild_height (s : State) : (s.rebuild).height = s.height := rfl
@[simp] theorem State.rebuild_frameBytes (s : State) : (s.rebuild).frameBytes = s.frameBytes := rfl
@[simp] theorem State.rebuild_storeBytes (s : State) : (s.rebuild).storeBytes = s.storeBytes := rfl
@[simp] theorem State.rebuild_slotAddr (s : State) (j : Nat) : (s.rebuild).slotAddr j = s.slotAddr j := rfl
@[simp] theorem State.rebuild_orderAt (s : State) (j : Nat) : (s.rebuild).orderAt j = s.orderAt j := rfl
@[simp] theorem State.writeOrder_width (s : State) (e : List Word) : (s.writeOrder e).width = s.width := rfl
@[simp] theorem State.writeOrder_height (s : State) (e : List Word) : (s.writeOrder e).height = s.height := rfl
@[simp] theorem State.writeOrder_frameBytes (s : State) (e : List Word) : (s.writeOrder e).frameBytes = s.frameBytes := rfl
@[simp] theorem State.writeOrder_storeBytes (s : State) (e : List Word) : (s.writeOrder e).storeBytes = s.storeBytes := rfl
@[simp] theorem State.writeOrder_slotAddr (s : State) (e : List Word) (j : Nat) : (s.writeOrder e).slotAddr j = s.slotAddr j := rfl
@[simp] theorem State.writeOrder_byteAt (s : State) (e : List Word) (a : Nat) : (s.writeOrder e).byteAt a = s.byteAt a := rfl
@[simp] theorem State.writeOrder_slotBytes (s : State) (e : List Word) (j : Nat) : (s.writeOrder e).slotBytes j = s.slotBytes j := rfl
@[simp] theorem State.clearOutputs_width (s : State) : (s.clearOutputs).width = s.width := rfl
@[simp] theorem State.clearOutputs_height (s : State) : (s.clearOutputs).height = s.height := rfl
@[simp] theorem State.clearOutputs_frameBytes (s : State) : (s.clearOutputs).frameBytes = s.frameBytes := rfl
@[simp] theorem State.clearOutputs_storeBytes (s : State) : (s.clearOutputs).storeBytes = s.storeBytes := rfl
@[simp] theorem State.clearOutputs_slotAddr (s : State) (j : Nat) : (s.clearOutputs).slotAddr j = s.slotAddr j := rfl
@[simp] theorem State.clearOutputs_orderAt (s : State) (j : Nat) : (s.clearOutputs).orderAt j = s.orderAt j := rfl
@[simp] theorem State.clearOutputs_byteAt (s : State) (a : Nat) : (s.clearOutputs).byteAt a = s.byteAt a := rfl
@[simp] theorem State.clearOutputs_slotBytes (s : State) (j : Nat) : (s.clearOutputs).slotBytes j = s.slotBytes j := rfl
@[simp] theorem State.consumed_width (s : State) (rest : List Word) : (s.consumed rest).width = s.width := rfl
@[simp] theorem State.consumed_height (s : State) (rest : List Word) : (s.consumed rest).height = s.height := rfl
@[simp] theorem State.consumed_frameBytes (s : State) (rest : List Word) : (s.consumed rest).frameBytes = s.frameBytes := rfl
@[simp] theorem State.consumed_storeBytes (s : State) (rest : List Word) : (s.consumed rest).storeBytes = s.storeBytes := rfl
@[simp] theorem State.consumed_slotAddr (s : State) (rest : List Word) (j : Nat) : (s.consumed rest).slotAddr j = s.slotAddr j := rfl
@[simp] theorem State.consumed_orderAt (s : State) (rest : List Word) (j : Nat) : (s.consumed rest).orderAt j = s.orderAt j := rfl
@[simp] theorem State.consumed_byteAt (s : State) (rest : List Word) (a : Nat) : (s.consumed rest).byteAt a = s.byteAt a := rfl
@[simp] theorem State.consumed_slotBytes (s : State) (rest : List Word) (j : Nat) : (s.consumed rest).slotBytes j = s.slotBytes j := rfl

end Sys2Proof.Machine
end

