-- ==== Sys2Proof/Laws/Ops.lean ====
section
/-! SUPPORT. One lemma per shared operation, saying once what it can do. -/

namespace Sys2Proof.Machine

/-- A record that goes on was framed. -/
theorem framed_next {b : Bool} {go : Host.Outcome State Fault Refusal} {t : State} (h : framed b go = .next t) :
    b = true ∧ go = .next t := by
  cases b with
  | true => exact ⟨rfl, h⟩
  | false => exact nomatch h

/-- A framed record does what its command does. -/
@[simp] theorem framed_true (go : Host.Outcome State Fault Refusal) : framed true go = go := rfl

/-- An answer appends one response and changes nothing else. -/
theorem State.answer_next {s t : State} {data : List Word} (h : s.answer data = .next t) : t = s.respond .ok data := by
  injection h with h
  exact h.symm

/-- A failure appends its status word and changes nothing else. -/
theorem State.fail_next {s t : State} {st : Status} (h : s.fail st = .next t) : t = s.respond st [] := by
  injection h with h
  exact h.symm

/-- Distinct statuses have distinct words, and only OK's is 0. -/
theorem Status.word_injective {a b : Status} (h : a.word = b.word) : a = b := by
  cases a <;> cases b <;> first | rfl | exact absurd h (by decide)

/-- A status word is 0 exactly for OK. -/
theorem Status.word_eq_zero_iff (st : Status) : st.word = 0 ↔ st = .ok := by
  cases st <;> decide

/-- Everything the command agent's turn can do. -/
theorem commandTurn_next {s t : State} (h : commandTurn s = .next t) :
    (decode s.n.toNat s.m.toNat s.cmd = .incomplete ∧ t = s) ∨
      (∃ why rest, decode s.n.toNat s.m.toNat s.cmd = .illegal why rest ∧
        t = (s.consumed rest).respond .errOpcode []) ∨
      (∃ i rest, decode s.n.toNat s.m.toNat s.cmd = .packet i rest ∧ exec i (s.consumed rest) = .next t) := by
  unfold commandTurn at h
  split at h
  · rename_i hd
    injection h with h
    exact .inl ⟨hd, h.symm⟩
  · rename_i why rest hd
    exact .inr (.inl ⟨why, rest, hd, State.fail_next h⟩)
  · rename_i i rest hd
    exact .inr (.inr ⟨i, rest, hd, h⟩)

/-- Everything a step can do, by the event it takes. -/
theorem step_next {s t : State} (h : step s = .next t) :
    (s.events = [] ∧ commandTurn s = .next t) ∨
      (∃ ws es, s.events = .command ws :: es ∧
        commandTurn { s with events := es, cmd := s.cmd ++ ws } = .next t) ∨
      (∃ es, s.events = .tick :: es ∧ displayTick { s with events := es } = .next t) ∨
      (∃ es, s.events = .rst :: es ∧ t = State.hardwareReset { s with events := es }) := by
  unfold step performEvent at h
  split at h
  · exact .inl ⟨‹_›, h⟩
  · rename_i ws es he
    exact .inr (.inl ⟨ws, es, he, h⟩)
  · rename_i es he
    exact .inr (.inr (.inl ⟨es, he, h⟩))
  · rename_i es he
    injection h with h
    exact .inr (.inr (.inr ⟨es, he, h.symm⟩))

/-- Writing a slot keeps the store's canonical form. -/
theorem State.writeSlots_wf {s : State} (h : Memory.wf s.fs = true) (k : Nat) (bs : List Byte) :
    Memory.wf (s.writeSlots k bs).fs = true :=
  Memory.writeBytes_wf h _ bs

/-- A byte of the store after bytes were written from the start of slot `k` on. -/
theorem State.byteAt_writeSlots {s : State} (h : Memory.wf s.fs = true) (k a : Nat) (bs : List Byte) :
    (s.writeSlots k bs).byteAt a =
      if s.slotAddr k ≤ a ∧ a < s.slotAddr k + bs.length then bs.getD (a - s.slotAddr k) 0 else s.byteAt a :=
  Memory.read_writeBytes h _ a bs

/-- Every byte of a rebuilt store is 0xFF. -/
@[simp] theorem State.byteAt_rebuild (s : State) (a : Nat) : s.rebuild.byteAt a = 0xFF#8 := rfl

/-- An order entry after the first entries were written. -/
theorem State.orderAt_writeOrder {s : State} (h : Cells.wf orderIdentity s.order = true) (e : List Word) (k : Nat) :
    (s.writeOrder e).orderAt k = if k < e.length then e.getD k 0 else s.orderAt k := by
  simp only [State.orderAt, State.writeOrder, Cells.read_writeList h, Nat.zero_le, true_and, Nat.zero_add, Nat.sub_zero]

/-- A slot has FB bytes. -/
@[simp] theorem State.slotBytes_length (s : State) (k : Nat) : (s.slotBytes k).length = s.frameBytes :=
  Memory.readBytes_length _ _ _

/-- Byte `q` of a slot is the byte of the store at `k·FB + q`. -/
theorem State.slotBytes_getElem (s : State) (k q : Nat) (h : q < (s.slotBytes k).length) :
    (s.slotBytes k)[q] = s.byteAt (s.slotAddr k + q) :=
  Memory.readBytes_getElem _ _ _ _ h

@[simp] theorem bytesOfWords_length (ws : List Word) : (bytesOfWords ws).length = 4 * ws.length := by
  induction ws with
  | nil => rfl
  | cons w ws ih =>
    simp only [bytesOfWords, List.length_append, ih, List.length_cons, wordBytes, List.length_nil]
    omega

/-- Packing bytes into words undoes unpacking them (R64). -/
theorem wordsOfBytes_bytesOfWords (ws : List Word) : wordsOfBytes (bytesOfWords ws) = ws := by
  induction ws with
  | nil => rfl
  | cons w ws ih =>
    simp only [bytesOfWords, wordBytes, List.cons_append, List.nil_append, wordsOfBytes, ih]
    congr 1
    ext i hi
    simp only [BitVec.getElem_append, BitVec.getElem_extractLsb']
    (repeat' split) <;> (rw [BitVec.getLsbD_eq_getElem (by omega)]; congr 1; try omega)

@[simp] theorem packInto_length (clr : Bool) (codes : List Nibble) (planes n m : Nat) (frame : List Byte) :
    (packInto clr codes planes n m frame).length = frame.length := by
  simp [packInto]

/-- Byte `q` of a packed frame. -/
theorem packInto_getElem (clr : Bool) (codes : List Nibble) (planes n m : Nat) (frame : List Byte) (q : Nat)
    (h : q < (packInto clr codes planes n m frame).length) :
    (packInto clr codes planes n m frame)[q] =
      packedByte clr codes planes n m (q / 4 % (2 * n)) (q / 4 / (2 * n)) (q % 4)
        (frame[q]'(by simpa using h)) := by
  simp [packInto]

end Sys2Proof.Machine
end

