-- ==== Sys2Proof/Laws/Values.lean ====
section
/-! SUPPORT. What the value operations can answer: decoding, flag views, byte streams, codes and the tick's arithmetic. -/

namespace Sys2Proof

/-- Operand words are taken from the front, and there are as many as asked for. -/
theorem takeOperands_some {k : Nat} {ws rest : List Word} {a b : Word} (h : takeOperands k ws = some (a, b, rest)) :
    (k = 0 ∧ a = 0 ∧ b = 0 ∧ ws = rest) ∨ (k = 1 ∧ b = 0 ∧ ws = a :: rest) ∨ (k = 2 ∧ ws = a :: b :: rest) := by
  unfold takeOperands at h
  split at h
  · injection h with h
    cases h
    exact .inl ⟨rfl, rfl, rfl, rfl⟩
  · injection h with h
    cases h
    exact .inr (.inl ⟨rfl, rfl, rfl⟩)
  · injection h with h
    cases h
    exact .inr (.inr ⟨rfl, rfl⟩)
  · exact nomatch h

/-- The payload is taken from the front and has the length asked for. -/
theorem takeWords_some {k : Nat} {ws payload rest : List Word} (h : takeWords k ws = some (payload, rest)) :
    ws = payload ++ rest ∧ payload.length = k := by
  unfold takeWords at h
  split at h
  · injection h with h
    injection h with h1 h2
    subst h1 h2
    exact ⟨(List.take_append_drop k ws).symm, by simpa using by omega⟩
  · exact nomatch h

/-- A payload of the right length in front of a stream is taken. -/
theorem takeWords_append {k : Nat} {payload : List Word} (rest : List Word) (h : payload.length = k) :
    takeWords k (payload ++ rest) = some (payload, rest) := by
  subst h
  simp [takeWords]

/-- A packet the decoder accepts: a known opcode, its operand words, its payload, no must-be-zero bit set (R94). -/
theorem decode_packet {n m : Nat} {ws rest : List Word} {i : Instr} (h : decode n m ws = .packet i rest) :
    ∃ hd tl op a b ws' payload, ws = hd :: tl ∧ Opcode.ofByte (headerOpcode hd) = some op ∧
      takeOperands op.operandCount tl = some (a, b, ws') ∧
      takeWords (op.payloadWords hd a b n m) ws' = some (payload, rest) ∧ op.reservedClear hd = true ∧
      op.build hd a b payload = some i := by
  unfold decode at h
  split at h
  · exact nomatch h
  · rename_i hd tl
    split at h
    · exact nomatch h
    · rename_i op hop
      split at h
      · exact nomatch h
      · rename_i a b ws' hto
        split at h
        · exact nomatch h
        · rename_i payload rest' htw
          split at h
          · rename_i hrc
            split at h
            · rename_i j hb
              injection h with h1 h2
              subst h1 h2
              exact ⟨hd, tl, op, a, b, ws', payload, rfl, hop, hto, htw, hrc, hb⟩
            · exact nomatch h
          · exact nomatch h

namespace Machine

/-- A flag is at its own bit of a view and nowhere else. -/
theorem flagBit_getLsbD (flag : Bool) (k j : Nat) :
    (flagBit flag k).getLsbD j = (flag && decide (j = k) && decide (j < 32)) := by
  simp only [flagBit, BitVec.getLsbD_shiftLeft, BitVec.getLsbD_setWidth, BitVec.getLsbD_ofBool]
  by_cases h : j = k
  · subst h
    cases flag <;> simp
  · by_cases h2 : j < k
    · simp [h, h2]
    · simp [h, show j - k ≠ 0 by omega]

/-- The zero-alpha form has four bytes for every three. -/
theorem zeroAlpha_length {bs : List Byte} {k : Nat} (h : bs.length = 3 * k) : (zeroAlpha bs).length = 4 * k := by
  induction k generalizing bs with
  | zero =>
    rw [List.length_eq_zero_iff.mp h]
    rfl
  | succ k ih =>
    obtain _ | ⟨r, _ | ⟨g, _ | ⟨b, bs⟩⟩⟩ := bs
    · simp at h
    · simp at h; omega
    · simp at h; omega
    · simp only [List.length_cons] at h
      simp only [zeroAlpha, List.length_cons, ih (show bs.length = 3 * k by omega)]
      omega

/-- A whole number of pixels is as many words. -/
theorem wordsOfBytes_length {bs : List Byte} {k : Nat} (h : bs.length = 4 * k) : (wordsOfBytes bs).length = k := by
  induction k generalizing bs with
  | zero =>
    rw [List.length_eq_zero_iff.mp h]
    rfl
  | succ k ih =>
    obtain _ | ⟨b0, _ | ⟨b1, _ | ⟨b2, _ | ⟨b3, bs⟩⟩⟩⟩ := bs
    · simp at h
    · simp at h; omega
    · simp at h; omega
    · simp at h; omega
    · simp only [List.length_cons] at h
      simp only [wordsOfBytes, List.length_cons, ih (show bs.length = 4 * k by omega)]

/-- The codes of a phase stream, if every level has one: as many as there are phases. -/
theorem codesOf_length {lut : Vector Word 17} {table : Vector Nibble 16} {phase : List Word} {codes : List Nibble}
    (h : codesOf lut table phase = some codes) : codes.length = phase.length := by
  induction phase generalizing codes with
  | nil =>
    injection h with h
    subst h
    rfl
  | cons v vs ih =>
    unfold codesOf at h
    split at h
    · rename_i c cs hc hcs
      injection h with h
      subst h
      simp [ih hcs]
    · exact nomatch h

/-- The saturating successor counts up by one below the largest value (R37). -/
theorem saturatingSucc_toInt (bi : Word) : (saturatingSucc bi).toInt = min (bi.toInt + 1) (2 ^ 31 - 1) := by
  have h1 := BitVec.toInt_lt (x := bi)
  have h2 := BitVec.le_toInt (x := bi)
  unfold saturatingSucc
  rw [BitVec.toInt_ofInt_eq_self]
  all_goals simp at *
  all_goals omega

/-- Counting a non-negative register down does not wrap. -/
theorem toInt_sub_one {fr : Word} (h : 0 ≤ fr.toInt) : (fr - 1).toInt = fr.toInt - 1 := by
  have := BitVec.toInt_lt (x := fr)
  rw [BitVec.toInt_sub]
  simp [Int.bmod]
  omega

/-- A clamp from 0 up is a minimum. -/
@[simp] theorem clampNat_zero (v hi : Nat) : clampNat v 0 hi = min v hi := by
  unfold clampNat
  split
  · omega
  · split <;> omega

end Machine

end Sys2Proof
end

