-- ==== Sys2Proof/Laws/Exec.lean ====
section
/-! SUPPORT. What a command can do, said once: it fails with a status word alone, or its checks hold and it has the one
effect listed here. -/

namespace Sys2Proof.Machine

/-- The effect of a command whose checks hold: the state it leaves, before its response is sent, and its data words. -/
inductive Performs : Instr → State → State → List Word → Prop where
  | nop (s : State) : Performs .nop s s []
  | softReset (s : State) : Performs .softReset s s.toReset []
  | readReg (s : State) (reg v : Word) (mapped : s.readRegister reg = some v) : Performs (.readReg reg) s s [v]
  | setLut (s : State) (table : Vector Word 17) :
    Performs (.setLut table) s { s with lut := table, lutLoaded := true } []
  | quantize (s : State) (v : Word) (loaded : s.lutLoaded = true) :
    Performs (.quantize v) s s [(quantize s.lut v).setWidth 32]
  | setCode (s : State) (c0 c1 : Word) :
    Performs (.setCode c0 c1) s { s with code := codeTableOf c0 c1, codeLoaded := true } []
  | code (s : State) (level : Level) (c : Nibble) (loaded : s.codeLoaded = true)
    (legal : codeLookup s.code level = some c) : Performs (.code level) s s [c.setWidth 32]
  | pack (s : State) (clr : Bool) (planes : BitVec 8) (dst : Word) (phase : List Word) (codes : List Nibble)
    (framed : phase.length = packWords planes s.n.toNat s.m.toNat) (geometry : s.n ≠ 0) (lut : s.lutLoaded = true)
    (table : s.codeLoaded = true) (few : planes.toNat ≤ 24) (slot : dst.toNat < s.capacity.toNat)
    (lookup : codesOf s.lut s.code phase = some codes) :
    Performs (.pack clr planes dst phase) s
      (s.writeSlots dst.toNat (packInto clr codes planes.toNat s.n.toNat s.m.toNat (s.slotBytes dst.toNat))) []
  | setGeometry (s : State) (n m : Word) (stopped : s.loopRun = false) (hn : n ≠ 0) (hm : m ≠ 0)
    (nMax : n.toNat ≤ s.params.nMax) (mMax : m.toNat ≤ s.params.mMax) :
    Performs (.setGeometry n m) s (State.rebuild { s with n := n.setWidth 16, m := m.setWidth 16 }) []
  | resize (s : State) (cap : Word) (stopped : s.loopRun = false) (hcap : cap ≠ 0)
    (capMax : cap.toNat ≤ s.params.capMax) : Performs (.resize cap) s (State.rebuild { s with capacity := cap }) []
  | insert (s : State) (layout : BitVec 2) (offset count : Word) (frames : List Word)
    (framed : frames.length = insertWords layout count s.n.toNat s.m.toNat) (legal : layout.toNat < 2)
    (slots : offset.toNat + count.toNat ≤ s.capacity.toNat) :
    Performs (.insert layout offset count frames) s
      (s.writeSlots offset.toNat (toRGBA layout (bytesOfWords frames))) []
  | setAt (s : State) (index : Word) (frame : List Word) (framed : frame.length = frameWords s.n.toNat s.m.toNat)
    (slot : index.toNat < s.capacity.toNat) :
    Performs (.setAt index frame) s (s.writeSlots index.toNat (bytesOfWords frame)) []
  | get (s : State) (index : Word) (slot : index.toNat < s.capacity.toNat) :
    Performs (.get index) s s (wordsOfBytes (s.slotBytes index.toNat))
  | setOrder (s : State) (len : Word) (entries : List Word) (framed : entries.length = len.toNat)
    (fits : len.toNat ≤ s.capacity.toNat) : Performs (.setOrder len entries) s (s.writeOrder entries) []
  | startSeq (s : State) (n : Word) (fits : n.toNat ≤ s.capacity.toNat) :
    Performs (.startSeq n) s { s with fis := n, fr := n, sa := true, ffh := true } []
  | startLoop (s : State) (capacity : s.capacity ≠ 0) (geometry : s.n ≠ 0) :
    Performs .startLoop s { s with loopRun := true } []
  | stopLoop (s : State) : Performs .stopLoop s { s with loopRun := false } []

/-- No effect sends a response by itself. -/
theorem Performs.rsp_eq {i : Instr} {s t : State} {data : List Word} (h : Performs i s t data) : t.rsp = s.rsp := by
  cases h <;> rfl

/-- The packer's lookups all succeed, whatever the tables hold (R142, R259). -/
theorem codesOf_some (lut : Vector Word 17) (table : Vector Nibble 16) (phase : List Word) :
    ∃ codes, codesOf lut table phase = some codes := by
  induction phase with
  | nil => exact ⟨[], rfl⟩
  | cons v vs ih =>
    obtain ⟨codes, hc⟩ := ih
    have hq : (quantize lut v).toNat < 16 := by
      unfold quantize
      split
      · decide
      · rename_i k _
        have := k.isLt
        split <;> rw [BitVec.toNat_ofNat] <;> omega
    exact ⟨table[(quantize lut v).toNat] :: codes, by simp only [codesOf, hc, codeLookup, hq, dite_true]⟩

/-- A next state comes from a framed record only. -/
theorem exec_next_wf {i : Instr} {s t : State} (h : exec i s = .next t) : i.wf s.n.toNat s.m.toNat = true := by
  cases i <;> first | rfl | exact (framed_next h).1

/-- Everything a framed command can do: fail with a status word other than OK, or perform its effect and answer OK. -/
theorem exec_cases (i : Instr) (s : State) (hw : i.wf s.n.toNat s.m.toNat = true) :
    (∃ st, st ≠ Status.ok ∧ exec i s = s.fail st) ∨ ∃ t data, Performs i s t data ∧ exec i s = t.answer data := by
  cases i <;> simp only [exec]
  case nop => exact .inr ⟨_, _, .nop s, rfl⟩
  case softReset => exact .inr ⟨_, _, .softReset s, rfl⟩
  case readReg reg =>
    unfold execReadReg
    split
    · exact .inl ⟨_, by decide, rfl⟩
    · exact .inr ⟨_, _, .readReg s reg _ ‹_›, rfl⟩
  case setLut table => exact .inr ⟨_, _, .setLut s table, rfl⟩
  case quantize v =>
    unfold execQuantize
    split
    · exact .inl ⟨_, by decide, rfl⟩
    · rename_i h
      exact .inr ⟨_, _, .quantize s v (by simpa using h), rfl⟩
  case setCode c0 c1 => exact .inr ⟨_, _, .setCode s c0 c1, rfl⟩
  case code level =>
    unfold execCode
    split
    · exact .inl ⟨_, by decide, rfl⟩
    · rename_i h
      split
      · exact .inl ⟨_, by decide, rfl⟩
      · exact .inr ⟨_, _, .code s level _ (by simpa using h) ‹_›, rfl⟩
  case pack clr planes dst phase =>
    unfold execPack
    rw [hw, framed_true]
    simp only [Instr.wf, beq_iff_eq] at hw
    split
    · exact .inl ⟨_, by decide, rfl⟩
    · rename_i h1
      simp only [not_or, Bool.not_eq_false] at h1
      split
      · exact .inl ⟨_, by decide, rfl⟩
      · split
        · exact .inl ⟨_, by decide, rfl⟩
        · obtain ⟨codes, hc⟩ := codesOf_some s.lut s.code phase
          rw [hc]
          exact .inr ⟨_, _, .pack s clr planes dst phase codes hw h1.1 h1.2.1 h1.2.2 (by omega) (by omega) hc, rfl⟩
  case setGeometry n m =>
    unfold execSetGeometry
    split
    · exact .inl ⟨_, by decide, rfl⟩
    · rename_i h1
      split
      · exact .inl ⟨_, by decide, rfl⟩
      · rename_i h2
        simp only [not_or] at h2
        exact .inr ⟨_, _, .setGeometry s n m (by simpa using h1) h2.1 h2.2.1 (by omega) (by omega), rfl⟩
  case resize cap =>
    unfold execResize
    split
    · exact .inl ⟨_, by decide, rfl⟩
    · rename_i h1
      split
      · exact .inl ⟨_, by decide, rfl⟩
      · rename_i h2
        simp only [not_or] at h2
        exact .inr ⟨_, _, .resize s cap (by simpa using h1) h2.1 (by omega), rfl⟩
  case insert layout offset count frames =>
    unfold execInsert
    rw [hw, framed_true]
    simp only [Instr.wf, beq_iff_eq] at hw
    split
    · exact .inl ⟨_, by decide, rfl⟩
    · split
      · exact .inl ⟨_, by decide, rfl⟩
      · exact .inr ⟨_, _, .insert s layout offset count frames hw (by omega) (by omega), rfl⟩
  case setAt index frame =>
    unfold execSetAt
    rw [hw, framed_true]
    simp only [Instr.wf, beq_iff_eq] at hw
    split
    · exact .inl ⟨_, by decide, rfl⟩
    · exact .inr ⟨_, _, .setAt s index frame hw (by omega), rfl⟩
  case get index =>
    unfold execGet
    split
    · exact .inl ⟨_, by decide, rfl⟩
    · exact .inr ⟨_, _, .get s index (by omega), rfl⟩
  case setOrder len entries =>
    unfold execSetOrder
    rw [hw, framed_true]
    simp only [Instr.wf, beq_iff_eq] at hw
    split
    · exact .inl ⟨_, by decide, rfl⟩
    · exact .inr ⟨_, _, .setOrder s len entries hw (by omega), rfl⟩
  case startSeq n =>
    unfold execStartSeq
    split
    · exact .inl ⟨_, by decide, rfl⟩
    · exact .inr ⟨_, _, .startSeq s n (by omega), rfl⟩
  case startLoop =>
    unfold execStartLoop
    split
    · exact .inl ⟨_, by decide, rfl⟩
    · rename_i h
      simp only [not_or] at h
      exact .inr ⟨_, _, .startLoop s h.1 h.2, rfl⟩
  case stopLoop => exact .inr ⟨_, _, .stopLoop s, rfl⟩

end Sys2Proof.Machine
end

