-- ==== Sys2Proof/Laws/PerInstr.lean ====
section
/-! SUPPORT. Statements about every command, one lemma per constructor of `Instr`: a well-formed command's packet is as
long as R90, R93 and R94 say, read from its own header and operand words. -/

namespace Sys2Proof

/-- The opcode map names its operations (R93). -/
@[simp] theorem Opcode.ofByte_byte (op : Opcode) : Opcode.ofByte op.byte = some op := by cases op <;> decide

/-- A Z header carries its opcode (R91). -/
@[simp] theorem headerOpcode_headerZ (op : Opcode) : headerOpcode (headerZ op) = op.byte := by cases op <;> decide

/-- A PK header carries its opcode and `planes` (R91). -/
@[simp] theorem headerOpcode_headerPK (clr : Bool) (planes : BitVec 8) :
    headerOpcode (headerPK .pack clr planes) = Opcode.pack.byte := by
  revert clr planes; decide

@[simp] theorem headerPlanes_headerPK (clr : Bool) (planes : BitVec 8) :
    headerPlanes (headerPK .pack clr planes) = planes := by
  revert clr planes; decide

/-- A CD header carries its opcode (R91). -/
@[simp] theorem headerOpcode_headerCD (level : Level) : headerOpcode (headerCD .code level) = Opcode.code.byte := by
  revert level; decide

/-- An IN header carries its opcode and `layout` (R91). -/
@[simp] theorem headerOpcode_headerIN (layout : BitVec 2) :
    headerOpcode (headerIN .insert layout) = Opcode.insert.byte := by
  revert layout; decide

@[simp] theorem headerLayout_headerIN (layout : BitVec 2) : headerLayout (headerIN .insert layout) = layout := by
  revert layout; decide

namespace Laws.PacketLength

/-- The packet of a well-formed command has the length that its header and operand words announce. -/
def Statement (i : Instr) : Prop :=
  ∀ n m : Nat, i.wf n m = true →
    (encode i).length = packetLength ((encode i).getD 0 0) ((encode i).getD 1 0) ((encode i).getD 2 0) n m

theorem nop : Statement .nop := by
  intro _ _ _
  simp [encode, packetLength, Opcode.operandCount, Opcode.payloadWords]

theorem softReset : Statement .softReset := by
  intro _ _ _
  simp [encode, packetLength, Opcode.operandCount, Opcode.payloadWords]

theorem readReg (reg : Word) : Statement (.readReg reg) := by
  intro _ _ _
  simp [encode, packetLength, Opcode.operandCount, Opcode.payloadWords]

theorem setLut (table : Vector Word 17) : Statement (.setLut table) := by
  intro n m _
  simp [encode, packetLength, Opcode.operandCount, Opcode.payloadWords]

theorem quantize (v : Word) : Statement (.quantize v) := by
  intro _ _ _
  simp [encode, packetLength, Opcode.operandCount, Opcode.payloadWords]

theorem setCode (c0 c1 : Word) : Statement (.setCode c0 c1) := by
  intro _ _ _
  simp [encode, packetLength, Opcode.operandCount, Opcode.payloadWords]

theorem code (level : Level) : Statement (.code level) := by
  intro n m _
  simp [encode, packetLength, Opcode.operandCount, Opcode.payloadWords]

theorem pack (clr : Bool) (planes : BitVec 8) (dst : Word) (phase : List Word) :
    Statement (.pack clr planes dst phase) := by
  intro n m h
  simp only [Instr.wf, beq_iff_eq] at h
  simp [encode, packetLength, Opcode.operandCount, Opcode.payloadWords, h]
  omega

theorem setGeometry (n m : Word) : Statement (.setGeometry n m) := by
  intro _ _ _
  simp [encode, packetLength, Opcode.operandCount, Opcode.payloadWords]

theorem resize (cap : Word) : Statement (.resize cap) := by
  intro _ _ _
  simp [encode, packetLength, Opcode.operandCount, Opcode.payloadWords]

theorem insert (layout : BitVec 2) (offset count : Word) (frames : List Word) :
    Statement (.insert layout offset count frames) := by
  intro n m h
  simp only [Instr.wf, beq_iff_eq] at h
  simp [encode, packetLength, Opcode.operandCount, Opcode.payloadWords, h]
  omega

theorem setAt (index : Word) (frame : List Word) : Statement (.setAt index frame) := by
  intro n m h
  simp only [Instr.wf, beq_iff_eq] at h
  simp [encode, packetLength, Opcode.operandCount, Opcode.payloadWords, h]
  omega

theorem get (index : Word) : Statement (.get index) := by
  intro _ _ _
  simp [encode, packetLength, Opcode.operandCount, Opcode.payloadWords]

theorem setOrder (len : Word) (entries : List Word) : Statement (.setOrder len entries) := by
  intro n m h
  simp only [Instr.wf, beq_iff_eq] at h
  simp [encode, packetLength, Opcode.operandCount, Opcode.payloadWords, h]
  omega

theorem startSeq (n : Word) : Statement (.startSeq n) := by
  intro _ _ _
  simp [encode, packetLength, Opcode.operandCount, Opcode.payloadWords]

theorem startLoop : Statement .startLoop := by
  intro _ _ _
  simp [encode, packetLength, Opcode.operandCount, Opcode.payloadWords]

theorem stopLoop : Statement .stopLoop := by
  intro _ _ _
  simp [encode, packetLength, Opcode.operandCount, Opcode.payloadWords]

end Laws.PacketLength

end Sys2Proof
end

