-- ==== Sys2Proof/Laws/Tick.lean ====
section
/-! SUPPORT. The display tick: what each of its five steps keeps and writes, and everything a tick can do. -/

namespace Sys2Proof.Machine

/-! ### `tickStart` -/

@[simp] theorem tickStart_params (held : Bool) (s : State) : (tickStart held s).params = s.params := by
  unfold tickStart; (repeat' split) <;> rfl
@[simp] theorem tickStart_lut (held : Bool) (s : State) : (tickStart held s).lut = s.lut := by
  unfold tickStart; (repeat' split) <;> rfl
@[simp] theorem tickStart_lutLoaded (held : Bool) (s : State) : (tickStart held s).lutLoaded = s.lutLoaded := by
  unfold tickStart; (repeat' split) <;> rfl
@[simp] theorem tickStart_code (held : Bool) (s : State) : (tickStart held s).code = s.code := by
  unfold tickStart; (repeat' split) <;> rfl
@[simp] theorem tickStart_codeLoaded (held : Bool) (s : State) : (tickStart held s).codeLoaded = s.codeLoaded := by
  unfold tickStart; (repeat' split) <;> rfl
@[simp] theorem tickStart_n (held : Bool) (s : State) : (tickStart held s).n = s.n := by
  unfold tickStart; (repeat' split) <;> rfl
@[simp] theorem tickStart_m (held : Bool) (s : State) : (tickStart held s).m = s.m := by
  unfold tickStart; (repeat' split) <;> rfl
@[simp] theorem tickStart_capacity (held : Bool) (s : State) : (tickStart held s).capacity = s.capacity := by
  unfold tickStart; (repeat' split) <;> rfl
@[simp] theorem tickStart_loopRun (held : Bool) (s : State) : (tickStart held s).loopRun = s.loopRun := by
  unfold tickStart; (repeat' split) <;> rfl
@[simp] theorem tickStart_fault (held : Bool) (s : State) : (tickStart held s).fault = s.fault := by
  unfold tickStart; (repeat' split) <;> rfl
@[simp] theorem tickStart_order (held : Bool) (s : State) : (tickStart held s).order = s.order := by
  unfold tickStart; (repeat' split) <;> rfl
@[simp] theorem tickStart_fr (held : Bool) (s : State) : (tickStart held s).fr = s.fr := by
  unfold tickStart; (repeat' split) <;> rfl
@[simp] theorem tickStart_fis (held : Bool) (s : State) : (tickStart held s).fis = s.fis := by
  unfold tickStart; (repeat' split) <;> rfl
@[simp] theorem tickStart_bi (held : Bool) (s : State) : (tickStart held s).bi = s.bi := by
  unfold tickStart; (repeat' split) <;> rfl
@[simp] theorem tickStart_sa (held : Bool) (s : State) : (tickStart held s).sa = s.sa := by
  unfold tickStart; (repeat' split) <;> rfl
@[simp] theorem tickStart_ffh (held : Bool) (s : State) : (tickStart held s).ffh = s.ffh := by
  unfold tickStart; (repeat' split) <;> rfl
@[simp] theorem tickStart_dispSlot (held : Bool) (s : State) : (tickStart held s).dispSlot = s.dispSlot := by
  unfold tickStart; (repeat' split) <;> rfl
@[simp] theorem tickStart_fs (held : Bool) (s : State) : (tickStart held s).fs = s.fs := by
  unfold tickStart; (repeat' split) <;> rfl
@[simp] theorem tickStart_stopPulse (held : Bool) (s : State) : (tickStart held s).stopPulse = s.stopPulse := by
  unfold tickStart; (repeat' split) <;> rfl
@[simp] theorem tickStart_present (held : Bool) (s : State) : (tickStart held s).present = s.present := by
  unfold tickStart; (repeat' split) <;> rfl
@[simp] theorem tickStart_rsp (held : Bool) (s : State) : (tickStart held s).rsp = s.rsp := by
  unfold tickStart; (repeat' split) <;> rfl
@[simp] theorem tickStart_cmd (held : Bool) (s : State) : (tickStart held s).cmd = s.cmd := by
  unfold tickStart; (repeat' split) <;> rfl
@[simp] theorem tickStart_events (held : Bool) (s : State) : (tickStart held s).events = s.events := by
  unfold tickStart; (repeat' split) <;> rfl

/-! ### `tickSelect` -/

@[simp] theorem tickSelect_params (s : State) : (tickSelect s).params = s.params := rfl
@[simp] theorem tickSelect_lut (s : State) : (tickSelect s).lut = s.lut := rfl
@[simp] theorem tickSelect_lutLoaded (s : State) : (tickSelect s).lutLoaded = s.lutLoaded := rfl
@[simp] theorem tickSelect_code (s : State) : (tickSelect s).code = s.code := rfl
@[simp] theorem tickSelect_codeLoaded (s : State) : (tickSelect s).codeLoaded = s.codeLoaded := rfl
@[simp] theorem tickSelect_n (s : State) : (tickSelect s).n = s.n := rfl
@[simp] theorem tickSelect_m (s : State) : (tickSelect s).m = s.m := rfl
@[simp] theorem tickSelect_capacity (s : State) : (tickSelect s).capacity = s.capacity := rfl
@[simp] theorem tickSelect_loopRun (s : State) : (tickSelect s).loopRun = s.loopRun := rfl
@[simp] theorem tickSelect_fault (s : State) : (tickSelect s).fault = s.fault := rfl
@[simp] theorem tickSelect_order (s : State) : (tickSelect s).order = s.order := rfl
@[simp] theorem tickSelect_mode (s : State) : (tickSelect s).mode = s.mode := rfl
@[simp] theorem tickSelect_fr (s : State) : (tickSelect s).fr = s.fr := rfl
@[simp] theorem tickSelect_fis (s : State) : (tickSelect s).fis = s.fis := rfl
@[simp] theorem tickSelect_ci (s : State) : (tickSelect s).ci = s.ci := rfl
@[simp] theorem tickSelect_bi (s : State) : (tickSelect s).bi = s.bi := rfl
@[simp] theorem tickSelect_sa (s : State) : (tickSelect s).sa = s.sa := rfl
@[simp] theorem tickSelect_ffh (s : State) : (tickSelect s).ffh = s.ffh := rfl
@[simp] theorem tickSelect_trig (s : State) : (tickSelect s).trig = s.trig := rfl
@[simp] theorem tickSelect_fs (s : State) : (tickSelect s).fs = s.fs := rfl
@[simp] theorem tickSelect_playPulse (s : State) : (tickSelect s).playPulse = s.playPulse := rfl
@[simp] theorem tickSelect_stopPulse (s : State) : (tickSelect s).stopPulse = s.stopPulse := rfl
@[simp] theorem tickSelect_present (s : State) : (tickSelect s).present = s.present := rfl
@[simp] theorem tickSelect_rsp (s : State) : (tickSelect s).rsp = s.rsp := rfl
@[simp] theorem tickSelect_cmd (s : State) : (tickSelect s).cmd = s.cmd := rfl
@[simp] theorem tickSelect_events (s : State) : (tickSelect s).events = s.events := rfl

/-! ### `tickCount` -/

@[simp] theorem tickCount_params (s : State) : (tickCount s).params = s.params := rfl
@[simp] theorem tickCount_lut (s : State) : (tickCount s).lut = s.lut := rfl
@[simp] theorem tickCount_lutLoaded (s : State) : (tickCount s).lutLoaded = s.lutLoaded := rfl
@[simp] theorem tickCount_code (s : State) : (tickCount s).code = s.code := rfl
@[simp] theorem tickCount_codeLoaded (s : State) : (tickCount s).codeLoaded = s.codeLoaded := rfl
@[simp] theorem tickCount_n (s : State) : (tickCount s).n = s.n := rfl
@[simp] theorem tickCount_m (s : State) : (tickCount s).m = s.m := rfl
@[simp] theorem tickCount_capacity (s : State) : (tickCount s).capacity = s.capacity := rfl
@[simp] theorem tickCount_loopRun (s : State) : (tickCount s).loopRun = s.loopRun := rfl
@[simp] theorem tickCount_fault (s : State) : (tickCount s).fault = s.fault := rfl
@[simp] theorem tickCount_order (s : State) : (tickCount s).order = s.order := rfl
@[simp] theorem tickCount_mode (s : State) : (tickCount s).mode = s.mode := rfl
@[simp] theorem tickCount_fr (s : State) : (tickCount s).fr = s.fr := rfl
@[simp] theorem tickCount_fis (s : State) : (tickCount s).fis = s.fis := rfl
@[simp] theorem tickCount_ci (s : State) : (tickCount s).ci = s.ci := rfl
@[simp] theorem tickCount_sa (s : State) : (tickCount s).sa = s.sa := rfl
@[simp] theorem tickCount_ffh (s : State) : (tickCount s).ffh = s.ffh := rfl
@[simp] theorem tickCount_trig (s : State) : (tickCount s).trig = s.trig := rfl
@[simp] theorem tickCount_dispSlot (s : State) : (tickCount s).dispSlot = s.dispSlot := rfl
@[simp] theorem tickCount_fs (s : State) : (tickCount s).fs = s.fs := rfl
@[simp] theorem tickCount_playPulse (s : State) : (tickCount s).playPulse = s.playPulse := rfl
@[simp] theorem tickCount_stopPulse (s : State) : (tickCount s).stopPulse = s.stopPulse := rfl
@[simp] theorem tickCount_present (s : State) : (tickCount s).present = s.present := rfl
@[simp] theorem tickCount_rsp (s : State) : (tickCount s).rsp = s.rsp := rfl
@[simp] theorem tickCount_cmd (s : State) : (tickCount s).cmd = s.cmd := rfl
@[simp] theorem tickCount_events (s : State) : (tickCount s).events = s.events := rfl

/-! ### `tickAdvance` -/

@[simp] theorem tickAdvance_params (held : Bool) (s : State) : (tickAdvance held s).params = s.params := by
  unfold tickAdvance; (repeat' split) <;> rfl
@[simp] theorem tickAdvance_lut (held : Bool) (s : State) : (tickAdvance held s).lut = s.lut := by
  unfold tickAdvance; (repeat' split) <;> rfl
@[simp] theorem tickAdvance_lutLoaded (held : Bool) (s : State) : (tickAdvance held s).lutLoaded = s.lutLoaded := by
  unfold tickAdvance; (repeat' split) <;> rfl
@[simp] theorem tickAdvance_code (held : Bool) (s : State) : (tickAdvance held s).code = s.code := by
  unfold tickAdvance; (repeat' split) <;> rfl
@[simp] theorem tickAdvance_codeLoaded (held : Bool) (s : State) : (tickAdvance held s).codeLoaded = s.codeLoaded := by
  unfold tickAdvance; (repeat' split) <;> rfl
@[simp] theorem tickAdvance_n (held : Bool) (s : State) : (tickAdvance held s).n = s.n := by
  unfold tickAdvance; (repeat' split) <;> rfl
@[simp] theorem tickAdvance_m (held : Bool) (s : State) : (tickAdvance held s).m = s.m := by
  unfold tickAdvance; (repeat' split) <;> rfl
@[simp] theorem tickAdvance_capacity (held : Bool) (s : State) : (tickAdvance held s).capacity = s.capacity := by
  unfold tickAdvance; (repeat' split) <;> rfl
@[simp] theorem tickAdvance_loopRun (held : Bool) (s : State) : (tickAdvance held s).loopRun = s.loopRun := by
  unfold tickAdvance; (repeat' split) <;> rfl
@[simp] theorem tickAdvance_fault (held : Bool) (s : State) : (tickAdvance held s).fault = s.fault := by
  unfold tickAdvance; (repeat' split) <;> rfl
@[simp] theorem tickAdvance_order (held : Bool) (s : State) : (tickAdvance held s).order = s.order := by
  unfold tickAdvance; (repeat' split) <;> rfl
@[simp] theorem tickAdvance_mode (held : Bool) (s : State) : (tickAdvance held s).mode = s.mode := by
  unfold tickAdvance; (repeat' split) <;> rfl
@[simp] theorem tickAdvance_fis (held : Bool) (s : State) : (tickAdvance held s).fis = s.fis := by
  unfold tickAdvance; (repeat' split) <;> rfl
@[simp] theorem tickAdvance_bi (held : Bool) (s : State) : (tickAdvance held s).bi = s.bi := by
  unfold tickAdvance; (repeat' split) <;> rfl
@[simp] theorem tickAdvance_sa (held : Bool) (s : State) : (tickAdvance held s).sa = s.sa := by
  unfold tickAdvance; (repeat' split) <;> rfl
@[simp] theorem tickAdvance_trig (held : Bool) (s : State) : (tickAdvance held s).trig = s.trig := by
  unfold tickAdvance; (repeat' split) <;> rfl
@[simp] theorem tickAdvance_dispSlot (held : Bool) (s : State) : (tickAdvance held s).dispSlot = s.dispSlot := by
  unfold tickAdvance; (repeat' split) <;> rfl
@[simp] theorem tickAdvance_fs (held : Bool) (s : State) : (tickAdvance held s).fs = s.fs := by
  unfold tickAdvance; (repeat' split) <;> rfl
@[simp] theorem tickAdvance_playPulse (held : Bool) (s : State) : (tickAdvance held s).playPulse = s.playPulse := by
  unfold tickAdvance; (repeat' split) <;> rfl
@[simp] theorem tickAdvance_stopPulse (held : Bool) (s : State) : (tickAdvance held s).stopPulse = s.stopPulse := by
  unfold tickAdvance; (repeat' split) <;> rfl
@[simp] theorem tickAdvance_present (held : Bool) (s : State) : (tickAdvance held s).present = s.present := by
  unfold tickAdvance; (repeat' split) <;> rfl
@[simp] theorem tickAdvance_rsp (held : Bool) (s : State) : (tickAdvance held s).rsp = s.rsp := by
  unfold tickAdvance; (repeat' split) <;> rfl
@[simp] theorem tickAdvance_cmd (held : Bool) (s : State) : (tickAdvance held s).cmd = s.cmd := by
  unfold tickAdvance; (repeat' split) <;> rfl
@[simp] theorem tickAdvance_events (held : Bool) (s : State) : (tickAdvance held s).events = s.events := by
  unfold tickAdvance; (repeat' split) <;> rfl

/-! ### `tickEnd` -/

@[simp] theorem tickEnd_params (s : State) : (tickEnd s).params = s.params := by
  unfold tickEnd; (repeat' split) <;> rfl
@[simp] theorem tickEnd_lut (s : State) : (tickEnd s).lut = s.lut := by
  unfold tickEnd; (repeat' split) <;> rfl
@[simp] theorem tickEnd_lutLoaded (s : State) : (tickEnd s).lutLoaded = s.lutLoaded := by
  unfold tickEnd; (repeat' split) <;> rfl
@[simp] theorem tickEnd_code (s : State) : (tickEnd s).code = s.code := by
  unfold tickEnd; (repeat' split) <;> rfl
@[simp] theorem tickEnd_codeLoaded (s : State) : (tickEnd s).codeLoaded = s.codeLoaded := by
  unfold tickEnd; (repeat' split) <;> rfl
@[simp] theorem tickEnd_n (s : State) : (tickEnd s).n = s.n := by
  unfold tickEnd; (repeat' split) <;> rfl
@[simp] theorem tickEnd_m (s : State) : (tickEnd s).m = s.m := by
  unfold tickEnd; (repeat' split) <;> rfl
@[simp] theorem tickEnd_capacity (s : State) : (tickEnd s).capacity = s.capacity := by
  unfold tickEnd; (repeat' split) <;> rfl
@[simp] theorem tickEnd_loopRun (s : State) : (tickEnd s).loopRun = s.loopRun := by
  unfold tickEnd; (repeat' split) <;> rfl
@[simp] theorem tickEnd_fault (s : State) : (tickEnd s).fault = s.fault := by
  unfold tickEnd; (repeat' split) <;> rfl
@[simp] theorem tickEnd_order (s : State) : (tickEnd s).order = s.order := by
  unfold tickEnd; (repeat' split) <;> rfl
@[simp] theorem tickEnd_fr (s : State) : (tickEnd s).fr = s.fr := by
  unfold tickEnd; (repeat' split) <;> rfl
@[simp] theorem tickEnd_fis (s : State) : (tickEnd s).fis = s.fis := by
  unfold tickEnd; (repeat' split) <;> rfl
@[simp] theorem tickEnd_ci (s : State) : (tickEnd s).ci = s.ci := by
  unfold tickEnd; (repeat' split) <;> rfl
@[simp] theorem tickEnd_ffh (s : State) : (tickEnd s).ffh = s.ffh := by
  unfold tickEnd; (repeat' split) <;> rfl
@[simp] theorem tickEnd_dispSlot (s : State) : (tickEnd s).dispSlot = s.dispSlot := by
  unfold tickEnd; (repeat' split) <;> rfl
@[simp] theorem tickEnd_fs (s : State) : (tickEnd s).fs = s.fs := by
  unfold tickEnd; (repeat' split) <;> rfl
@[simp] theorem tickEnd_playPulse (s : State) : (tickEnd s).playPulse = s.playPulse := by
  unfold tickEnd; (repeat' split) <;> rfl
@[simp] theorem tickEnd_present (s : State) : (tickEnd s).present = s.present := by
  unfold tickEnd; (repeat' split) <;> rfl
@[simp] theorem tickEnd_rsp (s : State) : (tickEnd s).rsp = s.rsp := by
  unfold tickEnd; (repeat' split) <;> rfl
@[simp] theorem tickEnd_cmd (s : State) : (tickEnd s).cmd = s.cmd := by
  unfold tickEnd; (repeat' split) <;> rfl
@[simp] theorem tickEnd_events (s : State) : (tickEnd s).events = s.events := by
  unfold tickEnd; (repeat' split) <;> rfl

/-! ### `tickPresent` -/

@[simp] theorem tickPresent_params (s : State) : (tickPresent s).params = s.params := rfl
@[simp] theorem tickPresent_lut (s : State) : (tickPresent s).lut = s.lut := rfl
@[simp] theorem tickPresent_lutLoaded (s : State) : (tickPresent s).lutLoaded = s.lutLoaded := rfl
@[simp] theorem tickPresent_code (s : State) : (tickPresent s).code = s.code := rfl
@[simp] theorem tickPresent_codeLoaded (s : State) : (tickPresent s).codeLoaded = s.codeLoaded := rfl
@[simp] theorem tickPresent_n (s : State) : (tickPresent s).n = s.n := rfl
@[simp] theorem tickPresent_m (s : State) : (tickPresent s).m = s.m := rfl
@[simp] theorem tickPresent_capacity (s : State) : (tickPresent s).capacity = s.capacity := rfl
@[simp] theorem tickPresent_loopRun (s : State) : (tickPresent s).loopRun = s.loopRun := rfl
@[simp] theorem tickPresent_fault (s : State) : (tickPresent s).fault = s.fault := rfl
@[simp] theorem tickPresent_order (s : State) : (tickPresent s).order = s.order := rfl
@[simp] theorem tickPresent_mode (s : State) : (tickPresent s).mode = s.mode := rfl
@[simp] theorem tickPresent_fr (s : State) : (tickPresent s).fr = s.fr := rfl
@[simp] theorem tickPresent_fis (s : State) : (tickPresent s).fis = s.fis := rfl
@[simp] theorem tickPresent_ci (s : State) : (tickPresent s).ci = s.ci := rfl
@[simp] theorem tickPresent_bi (s : State) : (tickPresent s).bi = s.bi := rfl
@[simp] theorem tickPresent_sa (s : State) : (tickPresent s).sa = s.sa := rfl
@[simp] theorem tickPresent_ffh (s : State) : (tickPresent s).ffh = s.ffh := rfl
@[simp] theorem tickPresent_trig (s : State) : (tickPresent s).trig = s.trig := rfl
@[simp] theorem tickPresent_dispSlot (s : State) : (tickPresent s).dispSlot = s.dispSlot := rfl
@[simp] theorem tickPresent_fs (s : State) : (tickPresent s).fs = s.fs := rfl
@[simp] theorem tickPresent_playPulse (s : State) : (tickPresent s).playPulse = s.playPulse := rfl
@[simp] theorem tickPresent_stopPulse (s : State) : (tickPresent s).stopPulse = s.stopPulse := rfl
@[simp] theorem tickPresent_rsp (s : State) : (tickPresent s).rsp = s.rsp := rfl
@[simp] theorem tickPresent_cmd (s : State) : (tickPresent s).cmd = s.cmd := rfl
@[simp] theorem tickPresent_events (s : State) : (tickPresent s).events = s.events := rfl

/-! ### The fields each step writes -/

@[simp] theorem tickStart_mode (held : Bool) (s : State) :
    (tickStart held s).mode = if s.startFires held then modePlaying else s.mode := by
  unfold tickStart; split <;> rfl

@[simp] theorem tickStart_ci (held : Bool) (s : State) :
    (tickStart held s).ci = if s.startFires held then 0 else s.ci := by
  unfold tickStart; split <;> rfl

@[simp] theorem tickStart_trig (held : Bool) (s : State) :
    (tickStart held s).trig = (s.trig || s.startFires held) := by
  unfold tickStart; split <;> simp_all

@[simp] theorem tickStart_playPulse (held : Bool) (s : State) :
    (tickStart held s).playPulse = s.startFires held := by
  unfold tickStart; split <;> simp_all

@[simp] theorem tickSelect_dispSlot (s : State) :
    (tickSelect s).dispSlot =
      BitVec.ofNat 32 ((s.orderAt (s.ci.toNat % s.capacity.toNat)).toNat % s.capacity.toNat) := rfl

@[simp] theorem tickCount_bi (s : State) :
    (tickCount s).bi = if s.trig then saturatingSucc s.bi else BitVec.ofInt 32 (-1) := rfl

@[simp] theorem tickAdvance_ffh (held : Bool) (s : State) :
    (tickAdvance held s).ffh = if held then false else s.ffh := by
  unfold tickAdvance; (repeat' split) <;> simp_all

@[simp] theorem tickAdvance_ci (held : Bool) (s : State) :
    (tickAdvance held s).ci = if held = false ∧ 0 ≤ s.fr.toInt then
      BitVec.ofNat 32 (clampNat (s.ci.toNat + 1) 0 (s.capacity.toNat - 1)) else s.ci := by
  unfold tickAdvance; (repeat' split) <;> simp_all

@[simp] theorem tickAdvance_fr (held : Bool) (s : State) :
    (tickAdvance held s).fr = if held = false ∧ 0 ≤ s.fr.toInt then s.fr - 1 else s.fr := by
  unfold tickAdvance; (repeat' split) <;> simp_all

@[simp] theorem tickEnd_mode (s : State) :
    (tickEnd s).mode = if s.fr.toInt < 0 ∧ s.sa = true then modeIdle else s.mode := by
  unfold tickEnd; split <;> rfl

@[simp] theorem tickEnd_sa (s : State) :
    (tickEnd s).sa = if s.fr.toInt < 0 ∧ s.sa = true then false else s.sa := by
  unfold tickEnd; split <;> rfl

@[simp] theorem tickEnd_bi (s : State) :
    (tickEnd s).bi = if s.fr.toInt < 0 ∧ s.sa = true then BitVec.ofInt 32 (-1) else s.bi := by
  unfold tickEnd; split <;> rfl

@[simp] theorem tickEnd_trig (s : State) :
    (tickEnd s).trig = if s.fr.toInt < 0 ∧ s.sa = true then false else s.trig := by
  unfold tickEnd; split <;> rfl

@[simp] theorem tickEnd_stopPulse (s : State) :
    (tickEnd s).stopPulse = decide (s.fr.toInt < 0 ∧ s.sa = true) := by
  unfold tickEnd; split <;> simp_all

@[simp] theorem tickPresent_present (s : State) :
    (tickPresent s).present = some (s.slotBytes s.dispSlot.toNat) := rfl

/-- Everything a display tick can do: it is ignored, or it takes the five steps; it stops only in a reserved mode or
without a store. -/
theorem displayTick_next {s t : State} (h : displayTick s = .next t) :
    (s.loopRun = false ∧ t = s.clearOutputs) ∨
      (s.loopRun = true ∧ s.mode.toNat < 2 ∧ s.capacity ≠ 0 ∧ t = presentingTick s) := by
  unfold displayTick at h
  split at h
  · rename_i hr
    injection h with h
    exact .inl ⟨hr, h.symm⟩
  · split at h
    · exact nomatch h
    · split at h
      · exact nomatch h
      · rename_i hr hm hc
        injection h with h
        exact .inr ⟨by simpa using hr, by omega, hc, h.symm⟩

/-- A display tick never refuses. -/
theorem displayTick_not_refused (s : State) (r : Refusal) : displayTick s ≠ .refused r := by
  unfold displayTick
  intro h
  (repeat' split at h) <;> exact nomatch h

end Sys2Proof.Machine
end

