-- ==== Sys2Proof/Tests/Slice0.lean ====
section
/-! SUPPORT. Tests on single words and single steps; expected values are spec/95_test_vectors.md's (the vector is named
at each test) or worked by hand from the rule named. Then, for every statement with hypotheses, a witness that concrete
states and operands meet them. -/

namespace Sys2Proof.Tests

open Sys2Proof.Machine

/-! ### States -/

/-- The uniform table UNI of the vectors' conventions. -/
def uni : Vector Word 17 :=
  #v[0x00000000#32, 0x3D800000#32, 0x3E000000#32, 0x3E400000#32, 0x3E800000#32, 0x3EA00000#32, 0x3EC00000#32,
    0x3EE00000#32, 0x3F000000#32, 0x3F100000#32, 0x3F200000#32, 0x3F300000#32, 0x3F400000#32, 0x3F500000#32,
    0x3F600000#32, 0x3F700000#32, 0x3F800000#32]

/-- The identity code table IDC. -/
def idc : Vector Nibble 16 := #v[0#4, 1#4, 2#4, 3#4, 4#4, 5#4, 6#4, 7#4, 8#4, 9#4, 10#4, 11#4, 12#4, 13#4, 14#4, 15#4]

/-- The reset state of the vectors' hardware: N_MAX = M_MAX = 64, CAP_MAX = 16. -/
def fresh : State := State.resetWith { nMax := 64, mMax := 64, capMax := 16 }

/-- The state after BOOT(n, m, cap), its responses read. -/
def boot (n m : BitVec 16) (cap : Word) : State :=
  { fresh with n := n, m := m, capacity := cap, lut := uni, lutLoaded := true, code := idc, codeLoaded := true }

/-- BOOT(1, 1, 4). -/
def booted : State := boot 1 1 4

/-- BOOT(1, 1, 4) and START_LOOP. -/
def running : State := { booted with loopRun := true }

/-- BOOT(1, 1, 4) with nothing loaded into the tables. -/
def tableless : State := { booted with lutLoaded := false, codeLoaded := false }

/-- A sequence of one frame whose start tick has passed: the trigger is up. -/
def playing : State :=
  { running with fis := 1, fr := 0, sa := true, trig := true, bi := 0, ci := 1, mode := modePlaying, dispSlot := 0 }

/-- The response words after a step. -/
def answerOf (o : Host.Outcome State Fault Refusal) : List Word :=
  match o with
  | .next t => t.rsp
  | .fault _ => []
  | .refused _ => []

/-- The pixel words of slot `k` after a step, in address order. -/
def slotOf (o : Host.Outcome State Fault Refusal) (k : Nat) : List Word :=
  match o with
  | .next t => wordsOfBytes (t.slotBytes k)
  | .fault _ => []
  | .refused _ => []

/-- The step is a next state with this property. -/
def nextHas (o : Host.Outcome State Fault Refusal) (p : State → Bool) : Bool :=
  match o with
  | .next t => p t
  | .fault _ => false
  | .refused _ => false

/-! ### Well-formedness: a payload of another length than R93's is refused -/

theorem test_wf_pack : Instr.wf 1 1 (.pack true 2#8 0 [0, 0]) = true ∧ Instr.wf 1 1 (.pack true 2#8 0 [0]) = false := by
  decide

theorem test_wf_insert_rgb :
    Instr.wf 1 1 (.insert 0#2 0 1 [0, 0, 0]) = true ∧ Instr.wf 1 1 (.insert 0#2 0 1 [0, 0, 0, 0]) = false := by decide

theorem test_wf_insert_rgba :
    Instr.wf 1 1 (.insert 1#2 0 1 [0, 0, 0, 0]) = true ∧ Instr.wf 1 1 (.insert 1#2 0 1 [0, 0, 0]) = false := by decide

theorem test_wf_insert_reserved :
    Instr.wf 1 1 (.insert 2#2 0 1 []) = true ∧ Instr.wf 1 1 (.insert 3#2 0 1 [0]) = false := by decide

theorem test_wf_set_at :
    Instr.wf 1 1 (.setAt 0 [0, 0, 0, 0]) = true ∧ Instr.wf 1 1 (.setAt 0 [0, 0, 0, 0, 0]) = false := by decide

theorem test_wf_set_order :
    Instr.wf 1 1 (.setOrder 2 [1, 0]) = true ∧ Instr.wf 1 1 (.setOrder 2 [1]) = false := by decide

/-! ### Decoding: every row of the opcode table, the words written out (R91, R93, R100; vectors, Encoding) -/

theorem test_decode_nop : decode 1 1 [0x00000000#32] = .packet .nop [] := by decide

theorem test_decode_soft_reset : decode 1 1 [0x01000000#32] = .packet .softReset [] := by decide

theorem test_decode_read_reg :
    decode 1 1 [0x02000000#32, 0x80000002#32] = .packet (.readReg 0x80000002#32) [] := by decide

theorem test_decode_set_lut :
    decode 1 1 ([0x10000000#32, 0x00000000#32, 0x3D800000#32, 0x3E000000#32, 0x3E400000#32, 0x3E800000#32, 0x3EA00000#32,
      0x3EC00000#32, 0x3EE00000#32, 0x3F000000#32, 0x3F100000#32, 0x3F200000#32, 0x3F300000#32, 0x3F400000#32,
      0x3F500000#32, 0x3F600000#32, 0x3F700000#32, 0x3F800000#32]) = .packet (.setLut uni) [] := by decide

theorem test_decode_quantize :
    decode 1 1 [0x11000000#32, 0x3E99999A#32] = .packet (.quantize 0x3E99999A#32) [] := by decide

theorem test_decode_set_code :
    decode 1 1 [0x18000000#32, 0x76543210#32, 0xFEDCBA98#32] =
      .packet (.setCode 0x76543210#32 0xFEDCBA98#32) [] := by decide

theorem test_decode_code : decode 1 1 [0x1900001F#32] = .packet (.code 31#5) [] := by decide

theorem test_decode_pack :
    decode 1 1 [0x20000102#32, 0x00000003#32, 0x3E99999A#32, 0x3F0CCCCD#32, 0x00000000#32] =
      .packet (.pack true 2#8 3#32 [0x3E99999A#32, 0x3F0CCCCD#32]) [0x00000000#32] := by decide

theorem test_decode_pack_no_planes :
    decode 1 1 [0x20000000#32, 0x00000001#32] = .packet (.pack false 0#8 1#32 []) [] := by decide

theorem test_decode_set_geometry :
    decode 1 1 [0x30000000#32, 0x00000002#32, 0x00000001#32] = .packet (.setGeometry 2#32 1#32) [] := by decide

theorem test_decode_resize : decode 1 1 [0x31000000#32, 0x00000004#32] = .packet (.resize 4#32) [] := by decide

theorem test_decode_insert :
    decode 1 1 [0x32000000#32, 0x00000001#32, 0x00000001#32, 0x01030201#32, 0x02010302#32, 0x03020103#32] =
      .packet (.insert 0#2 1#32 1#32 [0x01030201#32, 0x02010302#32, 0x03020103#32]) [] := by decide

theorem test_decode_set_at :
    decode 1 1 [0x33000000#32, 0x00000001#32, 0x04030201#32, 0x08070605#32, 0x0C0B0A09#32, 0x100F0E0D#32] =
      .packet (.setAt 1#32 [0x04030201#32, 0x08070605#32, 0x0C0B0A09#32, 0x100F0E0D#32]) [] := by decide

theorem test_decode_get : decode 1 1 [0x34000000#32, 0x00000003#32] = .packet (.get 3#32) [] := by decide

theorem test_decode_set_order :
    decode 1 1 [0x40000000#32, 0x00000002#32, 0x00000001#32, 0x00000000#32] =
      .packet (.setOrder 2#32 [1#32, 0#32]) [] := by decide

theorem test_decode_start_seq : decode 1 1 [0x41000000#32, 0x00000003#32] = .packet (.startSeq 3#32) [] := by decide

theorem test_decode_start_loop : decode 1 1 [0x42000000#32] = .packet .startLoop [] := by decide

theorem test_decode_stop_loop : decode 1 1 [0x43000000#32] = .packet .stopLoop [] := by decide

/-- The illegal packets of the vectors' Encoding table, each consumed whole. -/
theorem test_decode_illegal :
    decode 1 1 [0x05000000#32] = .illegal .unknownOpcode [] ∧ decode 1 1 [0xFF000000#32] = .illegal .unknownOpcode [] ∧
    decode 1 1 [0x00000001#32] = .illegal .reservedBits [] ∧ decode 1 1 [0x00FFFFFF#32] = .illegal .reservedBits [] ∧
    decode 1 1 [0x19000020#32] = .illegal .reservedBits [] ∧
    decode 1 1 [0x20000201#32, 0x00000007#32, 0x00000000#32] = .illegal .reservedBits [] ∧
    decode 1 1 [0x32000004#32, 0x00000000#32, 0x00000000#32] = .illegal .reservedBits [] := by decide

theorem test_decode_incomplete :
    decode 1 1 [] = .incomplete ∧ decode 1 1 [0x02000000#32] = .incomplete ∧
    decode 1 1 [0x20000101#32, 0x00000000#32] = .incomplete := by decide

theorem test_table_words :
    decodeTableWord 32 0x19000005 = some (.code 5#5) ∧ decodeTableWord 64 0x00000007_02000000 = some (.readReg 7#32) ∧
    decodeTableWord 96 0x00000001_00000002_30000000 = some (.setGeometry 2#32 1#32) ∧
    decodeTableWord 32 0x05000000 = none := by decide

/-- The first instruction after reset is the placed one. -/
theorem test_with_fetch_word :
    answerOf (step (State.reset.withFetchWord 32 0x01000000)) = [0x00000000#32] ∧
    answerOf (step (State.reset.withFetchWord 32 0x42000000)) = [0x00000004#32] := by decide

/-! ### Single commands -/

theorem test_nop : nextHas (exec .nop booted) (fun t => t == { booted with rsp := [0x00000000#32] }) = true := by decide

theorem test_soft_reset :
    nextHas (exec .softReset playing) (fun t => t == { fresh with rsp := [0x00000000#32] }) = true := by decide

/-- STATUS with everything but FAULT set (R31); BI = -1 (R37). -/
theorem test_read_reg :
    answerOf (exec (.readReg 0#32) running) = [0x00000000#32, 0x0000000F#32] ∧
    answerOf (exec (.readReg 8#32) running) = [0x00000000#32, 0xFFFFFFFF#32] ∧
    answerOf (exec (.readReg 0x20#32) running) = [0x00000000#32, 0x3F800000#32] := by decide

/-- The unmapped numbers at the ends of R242's ranges, and the last entry of ORDER. -/
theorem test_read_reg_unmapped :
    answerOf (exec (.readReg 0xB#32) booted) = [0x00000006#32] ∧
    answerOf (exec (.readReg 0x21#32) booted) = [0x00000006#32] ∧
    answerOf (exec (.readReg 0x80000010#32) booted) = [0x00000006#32] ∧
    answerOf (exec (.readReg 0x8000000F#32) booted) = [0x00000000#32, 0x0000000F#32] := by decide

theorem test_set_lut : nextHas (exec (.setLut uni) fresh) (fun t => t.lutLoaded && t.lut == uni && !t.codeLoaded) = true := by
  decide

/-- Vectors Q1: just below, at and just above a midpoint in the first and in the last bracket; a breakpoint; NaN. -/
theorem test_quantize :
    [0x3CFFFFFF#32, 0x3D000000#32, 0x3D000001#32, 0x3F77FFFF#32, 0x3F780000#32, 0x3F780001#32, 0x3F000000#32,
      0x7FC00000#32, 0x3E99999A#32].map (quantize uni) = [0#5, 0#5, 1#5, 15#5, 15#5, 0#5, 0#5, 0#5, 5#5] := by decide

/-- Vector Q4: the distances tie only after rounding. -/
theorem test_quantize_rounds :
    quantize ((Vector.replicate 17 0x4B800001#32).set 0 0xCB7FFFFF#32) 0x40000000#32 = 0#5 ∧
    (Val32.finite (16777216 * 2 ^ 149)).lt (Val32.finite (16777217 * 2 ^ 149)) = true := by decide

theorem test_set_code :
    answerOf (exec (.setCode 0x89ABCDEF#32 0x01234567#32) fresh) = [0x00000000#32] ∧
    codeTableOf 0x76543210#32 0xFEDCBA98#32 = idc := by decide

/-- Vectors, Code table: level 15, level 16, and no table loaded. -/
theorem test_code :
    answerOf (exec (.code 15#5) booted) = [0x00000000#32, 0x0000000F#32] ∧
    answerOf (exec (.code 16#5) booted) = [0x00000007#32] ∧ answerOf (exec (.code 16#5) fresh) = [0x00000004#32] := by
  decide

/-- Vector K3: two logical pixels in a row, two planes. -/
theorem test_pack :
    slotOf (exec (.pack true 2#8 0#32 [0x3E99999A#32, 0x3F0CCCCD#32, 0x3F666666#32, 0x3D23D70A#32]) (boot 2 1 2)) 0 =
      [0xFF000002#32, 0xFF000002#32, 0xFF000000#32, 0xFF000001#32,
        0xFF000001#32, 0xFF000003#32, 0xFF000003#32, 0xFF000000#32] := by decide

/-- Vector K5: no planes, on the rebuild fill. -/
theorem test_pack_clear :
    slotOf (exec (.pack false 0#8 3#32 []) booted) 3 = List.replicate 4 0xFFFFFFFF#32 ∧
    slotOf (exec (.pack true 0#8 3#32 []) booted) 3 = List.replicate 4 0xFF000000#32 := by decide

/-- Vectors, Frame store: N_MAX = 64; the loop running outranks a bad operand. -/
theorem test_set_geometry :
    nextHas (exec (.setGeometry 64#32 1#32) booted) (fun t => t.n == 64 && t.m == 1 && t.capacity == 4) = true ∧
    answerOf (exec (.setGeometry 65#32 1#32) booted) = [0x00000006#32] ∧
    answerOf (exec (.setGeometry 0#32 1#32) running) = [0x00000005#32] := by decide

theorem test_resize :
    nextHas (exec (.resize 16#32) booted) (fun t => t.capacity == 16) = true ∧
    answerOf (exec (.resize 17#32) booted) = [0x00000006#32] ∧
    answerOf (exec (.resize 0#32) running) = [0x00000005#32] := by decide

/-- Vectors, Frame store: the RGB frames get alpha 0. -/
theorem test_insert :
    slotOf (exec (.insert 0#2 1#32 2#32 [0x01030201#32, 0x02010302#32, 0x03020103#32, 0x0C0B0A09#32, 0x100F0E0D#32,
      0x14131211#32]) booted) 2 = [0x000B0A09#32, 0x000E0D0C#32, 0x0011100F#32, 0x00141312#32] := by decide

/-- Vectors, Frame store: the sum does not wrap; count 0 at the end of the store; a reserved layout first. -/
theorem test_insert_fails :
    answerOf (exec (.insert 0#2 0xFFFFFFFF#32 1#32 [0, 0, 0]) booted) = [0x00000002#32] ∧
    answerOf (exec (.insert 0#2 4#32 0#32 []) booted) = [0x00000000#32] ∧
    answerOf (exec (.insert 0#2 5#32 0#32 []) booted) = [0x00000002#32] ∧
    answerOf (exec (.insert 3#2 9#32 9#32 []) booted) = [0x00000006#32] := by decide

theorem test_set_at :
    slotOf (exec (.setAt 0#32 [0x04030201#32, 0x08070605#32, 0x0C0B0A09#32, 0x100F0E0D#32]) booted) 0 =
      [0x04030201#32, 0x08070605#32, 0x0C0B0A09#32, 0x100F0E0D#32] ∧
    answerOf (exec (.setAt 4#32 [0, 0, 0, 0]) booted) = [0x00000002#32] := by decide

theorem test_get :
    answerOf (exec (.get 0#32) booted) =
      [0x00000000#32, 0xFFFFFFFF#32, 0xFFFFFFFF#32, 0xFFFFFFFF#32, 0xFFFFFFFF#32] ∧
    answerOf (exec (.get 4#32) booted) = [0x00000002#32] := by decide

/-- Vector T8's order; values are not checked, only the length is (R201). -/
theorem test_set_order :
    nextHas (exec (.setOrder 4#32 [2, 0, 99, 1]) booted)
      (fun t => t.orderAt 0 == 2 && t.orderAt 1 == 0 && t.orderAt 2 == 99 && t.orderAt 3 == 1 && t.orderAt 4 == 4) =
      true ∧
    answerOf (exec (.setOrder 5#32 [0, 0, 0, 0, 0]) booted) = [0x00000002#32] := by decide

/-- Vector S5: n = CAPACITY is the largest. -/
theorem test_start_seq :
    nextHas (exec (.startSeq 4#32) booted) (fun t => t.fis == 4 && t.fr == 4 && t.sa && t.ffh && !t.trig) = true ∧
    answerOf (exec (.startSeq 5#32) booted) = [0x00000002#32] := by decide

theorem test_start_loop :
    nextHas (exec .startLoop booted) (fun t => t.loopRun) = true ∧
    answerOf (exec .startLoop { booted with capacity := 0 }) = [0x00000004#32] ∧
    answerOf (exec .startLoop { booted with n := 0, m := 0 }) = [0x00000004#32] := by decide

theorem test_stop_loop :
    nextHas (exec .stopLoop playing) (fun t => t == { playing with loopRun := false, rsp := [0x00000000#32] }) = true := by
  decide

/-! ### Single ticks -/

/-- Vector T1, tick 2: the start tick. -/
theorem test_tick_start :
    nextHas (displayTick { running with fis := 3, fr := 3, sa := true, dispSlot := 0 })
      (fun t => t.dispSlot == 0 && t.trig && t.bi == 0 && t.ci == 1 && t.fr == 2 && t.mode == modePlaying &&
        t.playPulse && !t.stopPulse) = true := by decide

/-- Vector T4, tick 3 (capacity 4): the grace tick shows one slot more and ends the sequence. -/
theorem test_tick_end :
    nextHas (displayTick playing)
      (fun t => t.dispSlot == 1 && !t.trig && t.bi == 0xFFFFFFFF && t.ci == 2 && t.fr == 0xFFFFFFFF &&
        t.mode == modeIdle && !t.sa && !t.playPulse && t.stopPulse && t.present == some (List.replicate 16 0xFF#8)) =
      true := by decide

/-- R99: FILL_SLOT writes one pixel everywhere. -/
theorem test_fill_slot :
    slotOf (exec (pseudoFillSlot booted 1#32 1#8 2#8 3#8 4#8) booted) 1 = List.replicate 4 0x04030201#32 := by decide

/-! ### Witnesses: states and operands that meet a statement's hypotheses, clause by clause -/

/-- The demonstration states meet R42 and the whole invariant. -/
theorem running_inv : running.Inv :=
  ⟨⟨by decide, by decide, by decide, by decide, by decide, by decide, by decide, by decide, by decide⟩, by decide,
    by decide, by decide, by decide⟩

theorem playing_inv : playing.Inv :=
  ⟨⟨by decide, by decide, by decide, by decide, by decide, by decide, by decide, by decide, by decide⟩, by decide,
    by decide, by decide, by decide⟩

/-- A tick on the playing state, as an event. -/
def ticking : State := { playing with events := [.tick] }

theorem ticking_inv : ticking.Inv :=
  ⟨⟨by decide, by decide, by decide, by decide, by decide, by decide, by decide, by decide, by decide⟩, by decide,
    by decide, by decide, by decide⟩

theorem witness_DecodeOfEncode :
    Instr.wf 1 1 (.pack true 24#8 0 (List.replicate 24 0)) = true ∧ Instr.wf 1 1 (.insert 0#2 3 1 [1, 2, 3]) = true ∧
    Instr.wf 0 0 (.setAt 0 []) = true ∧ Instr.wf 1 1 (.code 31#5) = true := by decide

theorem witness_EncodeOfDecode :
    decode 1 1 [0x20000101#32, 0#32, 0x3E99999A#32, 7#32] = .packet (.pack true 1#8 0#32 [0x3E99999A#32]) [7#32] := by
  decide

/-- The opcode bytes beside R93's groups. -/
theorem witness_UnknownOpcodeIsIllegal :
    ∀ h ∈ [0x03000000#32, 0x0F000000#32, 0x12000000#32, 0x1A000000#32, 0x21000000#32, 0x35000000#32, 0x44000000#32,
        0xFF000000#32],
      h.extractLsb' 24 8 ∉ [0x00#8, 0x01#8, 0x02#8, 0x10#8, 0x11#8, 0x18#8, 0x19#8, 0x20#8, 0x30#8, 0x31#8, 0x32#8,
        0x33#8, 0x34#8, 0x40#8, 0x41#8, 0x42#8, 0x43#8] := by
  intro h hh
  fin_cases hh <;> decide

/-- The lowest and the highest must-be-zero bit of a PK header, and the lowest of a Z, a CD and an IN header. -/
theorem witness_ReservedBitsAreIllegal :
    (Instr.wf 1 1 (.pack true 1#8 7 [5]) = true ∧ encode (.pack true 1#8 7 [5]) = 0x20000101#32 :: [7, 5] ∧
      (0x00000200#32 &&& reservedMask (.pack true 1#8 7 [5])) = 0x00000200#32 ∧
      (0x00800000#32 &&& reservedMask (.pack true 1#8 7 [5])) = 0x00800000#32) ∧
    (encode .nop = 0#32 :: [] ∧ (1#32 &&& reservedMask .nop) = 1#32) ∧
    (encode (.code 5#5) = 0x19000005#32 :: [] ∧ (0x20#32 &&& reservedMask (.code 5#5)) = 0x20#32) ∧
    (encode (.insert 2#2 0 0 []) = 0x32000002#32 :: [0, 0] ∧ (4#32 &&& reservedMask (.insert 2#2 0 0 [])) = 4#32) := by
  decide

theorem witness_WorkedEncodingsDecode :
    (List.replicate 24 (0 : Word)).length = 24 * 1 * 1 ∧ (List.replicate 3 (0 : Word)).length = 3 * 1 * 1 ∧
    (List.replicate 8 (0 : Word)).length = 2 * 4 * 1 * 1 := by decide

theorem witness_StepPerformsDecodedCommand :
    ({ booted with events := [.command [0x02000000, 3], .tick] } : State).events = .command [0x02000000, 3] :: [.tick] ∧
    decode booted.n.toNat booted.m.toNat (booted.cmd ++ [0x02000000, 3]) = .packet (.readReg 3) [] ∧
    booted.events = [] ∧ decode booted.n.toNat booted.m.toNat ({ booted with cmd := [0x42000000] } : State).cmd =
      .packet .startLoop [] := by decide

theorem witness_IllegalPacketAnswersErrOpcode :
    ({ booted with events := [.command [0x00000001, 9]] } : State).events = .command [0x00000001, 9] :: [] ∧
    decode booted.n.toNat booted.m.toNat (booted.cmd ++ [0x00000001, 9]) = .illegal .reservedBits [9] ∧
    booted.events = [] ∧
    decode booted.n.toNat booted.m.toNat ({ booted with cmd := [0xFF000000, 9] } : State).cmd =
      .illegal .unknownOpcode [9] := by decide

theorem witness_IncompletePacketWaits :
    ({ booted with events := [.command [0x02000000]] } : State).events = .command [0x02000000] :: [] ∧
    decode booted.n.toNat booted.m.toNat (booted.cmd ++ [0x02000000]) = .incomplete ∧ booted.events = [] ∧
    decode booted.n.toNat booted.m.toNat ({ booted with cmd := [0x02000000] } : State).cmd = .incomplete := by decide

theorem witness_HardwareResetGivesResetState :
    ({ playing with events := [.rst, .tick] } : State).events = .rst :: [.tick] := by decide

/-- The first and the last register of every row group of R43, and the ends of R242's ranges. -/
theorem witness_ReadRegReadsTheTable :
    playing.params.ok ∧ RegisterValue playing 0x00000000#32 0x0000000F#32 ∧ RegisterValue playing 0x0000000A#32 0#32 ∧
    RegisterValue playing 0x00000010#32 0#32 ∧ RegisterValue playing 0x00000020#32 0x3F800000#32 ∧
    RegisterValue playing 0x00000040#32 0#32 ∧ RegisterValue playing 0x0000004F#32 15#32 ∧
    RegisterValue playing 0x80000000#32 0#32 ∧ RegisterValue playing 0x8000000F#32 15#32 ∧
    ∀ reg ∈ [0xB#32, 0xF#32, 0x21#32, 0x3F#32, 0x50#32, 0x7FFFFFFF#32, 0x80000010#32, 0xFFFFFFFF#32],
      UnmappedRegister playing reg :=
  ⟨by decide, .status, .dispSlot, .lut 0, .lut 16, .code 0, .code 15, .order 0 (by decide), .order 15 (by decide), by
    intro reg hr
    unfold UnmappedRegister
    fin_cases hr <;> decide⟩

/-- R51's table is met by three states. -/
theorem witness_ResetTable :
    exec .softReset playing = .next { fresh with rsp := [0#32] } ∧
    step { playing with events := [.rst] } = .next fresh ∧ fresh = State.resetWith playing.params :=
  ⟨rfl, rfl, rfl⟩

/-- The mapped and the unmapped numbers on both sides of each boundary of R242. -/
theorem witness_RegisterMapIsTotal :
    fresh.params.ok ∧
    (∀ reg ∈ [0xA#32, 0x10#32, 0x20#32, 0x40#32, 0x4F#32, 0x80000000#32, 0x8000000F#32], ¬ UnmappedRegister fresh reg) ∧
    ∀ reg ∈ [0xB#32, 0xF#32, 0x21#32, 0x3F#32, 0x50#32, 0x7FFFFFFF#32, 0x80000010#32], UnmappedRegister fresh reg := by
  refine ⟨by decide, ?_, ?_⟩ <;>
  · intro reg hr
    unfold UnmappedRegister
    fin_cases hr <;> decide

theorem witness_QuantizeAnswersTheLevel : tableless.lutLoaded = false ∧ booted.lutLoaded = true := by decide

/-- The first and the last bracket, each the first that matches; and a value no bracket holds. -/
theorem witness_QuantizeTakesFirstBracket :
    (bracketHolds uni 0x3D000000#32 0 = true ∧ ∀ j : Fin 16, j < 0 → bracketHolds uni 0x3D000000#32 j = false) ∧
    (bracketHolds uni 0x3F780001#32 15 = true ∧ ∀ j : Fin 16, j < 15 → bracketHolds uni 0x3F780001#32 j = false) ∧
    ∀ k : Fin 16, bracketHolds uni 0x3FC00000#32 k = false := by decide

/-- UNI is non-decreasing. -/
theorem uni_nonDecreasing : NonDecreasing uni := by
  intro k
  revert k
  simp only [Val32.le]
  decide

theorem witness_QuantizeDefaultsToZero :
    NonDecreasing uni ∧ Val32.ofBits 0x80000000#32 = breakpoint uni 0 ∧ Val32.ofBits 0x3F800000#32 = breakpoint uni 16 ∧
    (Val32.ofBits 0xBDCCCCCD#32).lt (breakpoint uni 0) = true ∧
    (breakpoint uni 16).lt (Val32.ofBits 0x3FC00000#32) = true ∧
    Val32.ofBits 0x7F800000#32 = .posInf ∧ Val32.ofBits 0xFF800000#32 = .negInf ∧
    Val32.ofBits 0x7FC00000#32 = .nan ∧ Val32.ofBits 0x7F800001#32 = .nan :=
  ⟨uni_nonDecreasing, by decide, by decide, by decide, by decide, by decide, by decide, by decide, by decide⟩

theorem witness_AtMostOneBracketMatches :
    NonDecreasing uni ∧ bracketHolds uni 0x3E99999A#32 4 = true ∧
    (breakpoint (Vector.replicate 17 0#32) (Fin.castSucc 3)).lt (breakpoint (Vector.replicate 17 0#32) (Fin.succ 3)) =
      false :=
  ⟨uni_nonDecreasing, by decide, by decide⟩

theorem witness_MatchedDistancesArePositive : bracketHolds uni 0x00000001#32 0 = true := by decide

/-- The midpoint 1/32 of the first bracket, in units of 2^-149. -/
theorem witness_RoundingKeepsTheLowerEnd :
    breakpoint uni (Fin.castSucc 0) = .finite 0 ∧ Val32.ofBits 0x3D000000#32 = .finite (2 ^ 144) ∧
    breakpoint uni (Fin.succ 0) = .finite (2 ^ 145) ∧ (0 : Int) < 2 ^ 144 ∧ (2 ^ 144 : Int) < 2 ^ 145 ∧
    (2 ^ 144 : Int) - 0 ≤ 2 ^ 145 - 2 ^ 144 ∧ firstBracket uni 0x3D000000#32 = some 0 := by decide

/-- A tie: 2^24 + 1 lies midway between 2^24 and 2^24 + 2, and the even one is 2^24. -/
theorem witness_RoundingIsNearestTiesToEven :
    Representable 16777218 ∧ 16777218 ≠ roundSignificand 16777217 ∧
    distance 16777217 16777218 = distance 16777217 (roundSignificand 16777217) :=
  ⟨⟨8388609, 1, by decide, by decide⟩, by decide, by decide⟩

/-- Both sides of the overflow boundary: one unit below halfway gives the largest finite value, 0x7F7FFFFF. -/
theorem test_rounding_overflow :
    roundMagnitude ((2 ^ 25 - 1) * 2 ^ 252) = .posInf ∧
    roundMagnitude ((2 ^ 25 - 1) * 2 ^ 252 - 1) = Val32.ofBits 0x7F7FFFFF#32 := by decide

theorem witness_CodeAnswersTheEntry :
    tableless.codeLoaded = false ∧ booted.codeLoaded = true ∧ 15 < (16#5 : Level).toNat ∧ 15 < (31#5 : Level).toNat ∧
    (15#5 : Level).toNat < 16 := by decide

theorem witness_PlaneAndCornerMaps :
    23 < 24 ∧ 2 < 3 ∧ 7 < 8 ∧ colorChannel 23 = 2 ∧ bitOffset 23 = 7 := by decide

theorem witness_PackWritesTheBitPlanes :
    Memory.wf booted.fs = true ∧
    (List.replicate 24 (0x3F740000 : Word)).length = (24#8 : BitVec 8).toNat * booted.n.toNat * booted.m.toNat ∧
    booted.n ≠ 0 ∧ booted.lutLoaded = true ∧ booted.codeLoaded = true ∧ (24#8 : BitVec 8).toNat ≤ 24 ∧
    (3#32 : Word).toNat < booted.capacity.toNat ∧
    ¬ (booted.slotAddr 3 ≤ 47 ∧ 47 < booted.slotAddr 3 + booted.frameBytes) ∧ 1 < booted.width ∧ 1 < booted.height := by
  decide

theorem witness_PackFailsInOrder :
    ([] : List Word).length = (255#8 : BitVec 8).toNat * fresh.n.toNat * fresh.m.toNat ∧ fresh.n = 0 ∧
    tableless.lutLoaded = false ∧ tableless.codeLoaded = false ∧
    (List.replicate 25 (0 : Word)).length = (25#8 : BitVec 8).toNat * booted.n.toNat * booted.m.toNat ∧
    booted.n ≠ 0 ∧ booted.lutLoaded = true ∧ booted.codeLoaded = true ∧ 24 < (25#8 : BitVec 8).toNat ∧
    ([0] : List Word).length = (1#8 : BitVec 8).toNat * booted.n.toNat * booted.m.toNat ∧
    (1#8 : BitVec 8).toNat ≤ 24 ∧ booted.capacity.toNat ≤ (4#32 : Word).toNat := by decide

/-- For the scalar and the tiled form: a frame of 9 × 5 logical pixels covers more than one tile each way. -/
theorem witness_ScalarPackEqualsClosedForm : 24 ≤ 24 ∧ (List.replicate 720 (0 : Byte)).length = 16 * 9 * 5 :=
  ⟨by decide, List.length_replicate⟩

theorem witness_TiledPackEqualsScalarPack : 24 ≤ 24 ∧ (List.replicate 1296 (0 : Byte)).length = 16 * 9 * 9 :=
  ⟨by decide, List.length_replicate⟩

theorem witness_PackedBlockReadsBackTheCode :
    24 ≤ 24 ∧ (List.replicate 96 (0 : Byte)).length = 16 * 3 * 2 ∧ 23 < 24 ∧ 2 < 3 ∧ 1 < 2 :=
  ⟨by decide, List.length_replicate, by decide, by decide, by decide⟩

theorem witness_AccumulatingPacksCommute :
    Memory.wf booted.fs = true ∧ booted.n ≠ 0 ∧ booted.lutLoaded = true ∧ booted.codeLoaded = true ∧
    (0#32 : Word).toNat < booted.capacity.toNat ∧ (1#8 : BitVec 8).toNat ≤ 24 ∧
    ([0x3E99999A] : List Word).length = (1#8 : BitVec 8).toNat * booted.n.toNat * booted.m.toNat ∧
    ([0x3DCCCCCD] : List Word).length = (1#8 : BitVec 8).toNat * booted.n.toNat * booted.m.toNat := by decide

theorem witness_SetGeometryRebuilds :
    fresh.params.ok ∧ running.params.ok ∧ running.loopRun = true ∧ fresh.loopRun = false ∧
    fresh.params.nMax < (65#32 : Word).toNat ∧ fresh.params.mMax < (65#32 : Word).toNat ∧ 1 ≤ (1#32 : Word).toNat ∧
    (64#32 : Word).toNat ≤ fresh.params.nMax ∧ (64#32 : Word).toNat ≤ fresh.params.mMax := by decide

theorem witness_ResizeRebuilds :
    running.loopRun = true ∧ booted.loopRun = false ∧ booted.params.capMax < (17#32 : Word).toNat ∧
    1 ≤ (1#32 : Word).toNat ∧ (16#32 : Word).toNat ≤ booted.params.capMax := by decide

theorem witness_InsertFailsInOrder :
    Instr.wf booted.n.toNat booted.m.toNat (.insert 2#2 0 1 []) = true ∧ 2 ≤ (2#2 : BitVec 2).toNat ∧
    Instr.wf booted.n.toNat booted.m.toNat (.insert 1#2 5 0 []) = true ∧ (1#2 : BitVec 2).toNat < 2 ∧
    booted.capacity.toNat < (5#32 : Word).toNat + (0#32 : Word).toNat ∧
    Instr.wf booted.n.toNat booted.m.toNat (.insert 0#2 0xFFFFFFFF 1 [0, 0, 0]) = true ∧
    booted.capacity.toNat < (0xFFFFFFFF#32 : Word).toNat + (1#32 : Word).toNat := by decide

theorem witness_InsertStoresRgbaFrames :
    Memory.wf booted.fs = true ∧
    ([0, 1, 2, 3, 4, 5, 6, 7] : List Word).length = (2#32 : Word).toNat * (4 * booted.n.toNat * booted.m.toNat) ∧
    (2#32 : Word).toNat + (2#32 : Word).toNat ≤ booted.capacity.toNat ∧ 1 < (2#32 : Word).toNat ∧
    15 < booted.frameBytes ∧ ¬ (booted.slotAddr 2 ≤ 31 ∧ 31 < booted.slotAddr (2 + 2)) := by decide

theorem witness_InsertStoresRgbFrames :
    Memory.wf booted.fs = true ∧
    ([0, 1, 2, 3, 4, 5] : List Word).length = (2#32 : Word).toNat * (3 * booted.n.toNat * booted.m.toNat) ∧
    (2#32 : Word).toNat + (2#32 : Word).toNat ≤ booted.capacity.toNat ∧ 1 < (2#32 : Word).toNat ∧
    3 < booted.width * booted.height ∧ ¬ (booted.slotAddr 2 ≤ 64 ∧ 64 < booted.slotAddr (2 + 2)) := by decide

theorem witness_SetAtStoresTheFrame :
    ([1, 2, 3, 4] : List Word).length = 4 * booted.n.toNat * booted.m.toNat ∧
    booted.capacity.toNat ≤ (4#32 : Word).toNat ∧ Memory.wf booted.fs = true ∧
    (3#32 : Word).toNat < booted.capacity.toNat ∧ 15 < booted.frameBytes ∧
    ¬ (booted.slotAddr 3 ≤ 47 ∧ 47 < booted.slotAddr 3 + booted.frameBytes) := by decide

theorem witness_GetAnswersTheSlot :
    booted.capacity.toNat ≤ (4#32 : Word).toNat ∧ (3#32 : Word).toNat < booted.capacity.toNat ∧
    3 < 4 * booted.n.toNat * booted.m.toNat := by decide

theorem witness_GetAnswersWhatSetAtStored :
    Memory.wf booted.fs = true ∧ ([1, 2, 3, 4] : List Word).length = 4 * booted.n.toNat * booted.m.toNat ∧
    (3#32 : Word).toNat < booted.capacity.toNat := by decide

theorem witness_SetOrderWritesThePrefix :
    ([0, 0, 0, 0, 0] : List Word).length = (5#32 : Word).toNat ∧ booted.capacity.toNat < (5#32 : Word).toNat ∧
    ([3, 2, 1, 0] : List Word).length = (4#32 : Word).toNat ∧ Cells.wf orderIdentity booted.order = true ∧
    (4#32 : Word).toNat ≤ booted.capacity.toNat := by decide

theorem witness_StartLoopRuns :
    fresh.capacity = 0 ∧ fresh.n = 0 ∧ booted.capacity ≠ 0 ∧ booted.n ≠ 0 := by decide

theorem witness_StartSeqArmsTheSequence :
    booted.capacity.toNat < (5#32 : Word).toNat ∧ (4#32 : Word).toNat ≤ booted.capacity.toNat ∧
    (0#32 : Word).toNat ≤ booted.capacity.toNat := by decide

theorem witness_StoppedTickDoesNothing :
    ({ playing with loopRun := false, events := [.tick] } : State).loopRun = false ∧
    ({ playing with loopRun := false, events := [.tick] } : State).events = .tick :: [] := by decide

theorem witness_TickPerformsTheFiveSteps :
    ticking.loopRun = true ∧ ticking.mode.toNat ≤ 1 ∧ 1 ≤ ticking.capacity.toNat ∧ ticking.events = .tick :: [] := by
  decide

/-- The shortest and the longest sequence of a store of four slots. -/
theorem witness_SequenceShowsTheOrder :
    running.R42 ∧ running.loopRun = true ∧ running.sa = false ∧ 1 ≤ (1#32 : Word).toNat ∧
    (1#32 : Word).toNat ≤ running.capacity.toNat ∧ (4#32 : Word).toNat ≤ running.capacity.toNat :=
  ⟨running_inv.r42, by decide, by decide, by decide, by decide, by decide⟩

/-- A sequence is restarted while the trigger is up. -/
theorem witness_RestartHoldsThenStartsAgain :
    playing.R42 ∧ playing.loopRun = true ∧ playing.sa = true ∧ playing.trig = true ∧
    (0#32 : Word).toNat ≤ playing.capacity.toNat ∧ 1 ≤ (1#32 : Word).toNat ∧
    (4#32 : Word).toNat ≤ playing.capacity.toNat :=
  ⟨playing_inv.r42, by decide, by decide, by decide, by decide, by decide, by decide⟩

theorem witness_EmptySequencePulsesOnce : running.R42 ∧ running.loopRun = true ∧ running.sa = false :=
  ⟨running_inv.r42, by decide, by decide⟩

theorem witness_ResetMeetsTheInvariant : fresh.params.ok := by decide

/-- For the three statements about a step from a state that meets R42 or the whole invariant. -/
theorem witness_StepKeepsR42 : ticking.R42 ∧ step ticking = .next (presentingTick { ticking with events := [] }) :=
  ⟨ticking_inv.r42, rfl⟩

theorem witness_StepKeepsTheInvariant :
    ticking.Inv ∧ step ticking = .next (presentingTick { ticking with events := [] }) :=
  ⟨ticking_inv, rfl⟩

theorem witness_StepNeverStops : ticking.R42 := ticking_inv.r42

theorem witness_FailedCommandChangesNothing :
    exec .startLoop fresh = .next { fresh with rsp := [4#32] } ∧
    ({ fresh with rsp := [4#32] } : State).rsp = fresh.rsp ++ 4#32 :: [] ∧ (4#32 : Word) ≠ 0 :=
  ⟨rfl, by decide, by decide⟩

theorem witness_EveryCommandAnswersOnce :
    Instr.wf booted.n.toNat booted.m.toNat (.pack true 1#8 0 [0x3E99999A]) = true ∧
    Instr.wf fresh.n.toNat fresh.m.toNat (.insert 3#2 9 9 []) = true := by decide

theorem witness_MisframedRecordIsRefused : Instr.wf booted.n.toNat booted.m.toNat (.setAt 0 []) = false := by decide

theorem witness_RegistersHaveTheirOwnWriters :
    exec .nop booted = .next { booted with rsp := [0#32] } ∧ Instr.nop ≠ .softReset ∧ Instr.nop ≠ .startLoop ∧
    Instr.nop ≠ .stopLoop ∧ (∀ table, Instr.nop ≠ .setLut table) ∧ (∀ c0 c1, Instr.nop ≠ .setCode c0 c1) ∧
    (∀ n m, Instr.nop ≠ .setGeometry n m) ∧ (∀ cap, Instr.nop ≠ .resize cap) ∧
    ∀ len entries, Instr.nop ≠ .setOrder len entries :=
  ⟨rfl, by decide, by decide, by decide, nofun, nofun, nofun, nofun, nofun⟩

theorem witness_AgentsWriteTheirOwnState :
    displayTick playing = .next (presentingTick playing) ∧ exec .nop booted = .next { booted with rsp := [0#32] } ∧
    Instr.nop ≠ .softReset ∧ ∀ n, Instr.nop ≠ .startSeq n :=
  ⟨rfl, rfl, by decide, nofun⟩

theorem witness_StepKeepsTheParameters : step ticking = .next (presentingTick { ticking with events := [] }) := rfl

end Sys2Proof.Tests
end

section
/-! PROOFS. Rounding a magnitude to 24 significant bits, spec 00_scope.md R15. The idea: at or above 2^24 the result is
the multiple of one power of two nearest to the argument (`roundSignificand_nearestMultiple`), and a representable
magnitude is either a multiple of that power too or lies below the whole binade (`Representable.dvd_or_lt`). What
`roundMagnitude` does at the overflow boundary follows from nearness alone. -/

namespace Sys2Proof.Machine

/-! ### Representable magnitudes -/

theorem representable_of_lt {x : Nat} (h : x < 2 ^ 24) : Representable x := ⟨x, 0, h, by simp⟩

/-- The carry out of 24 bits, `m = 2^24`, is again representable. -/
theorem representable_mul_two_pow {m : Nat} (h : m ≤ 2 ^ 24) (e : Nat) : Representable (m * 2 ^ e) := by
  obtain hlt | rfl := h.lt_or_eq
  · exact ⟨m, e, hlt, rfl⟩
  · exact ⟨2 ^ 23, e + 1, by decide, by ring⟩

/-- From `2^23 · 2^n` on, the representable magnitudes are multiples of `2^n`. -/
theorem Representable.dvd_or_lt {y : Nat} (h : Representable y) (n : Nat) : 2 ^ n ∣ y ∨ y < 2 ^ 23 * 2 ^ n := by
  obtain ⟨significand, e, hs, rfl⟩ := h
  obtain hne | hen := le_or_gt n e
  · exact .inl (Dvd.dvd.mul_left (pow_dvd_pow 2 hne) _)
  · right
    calc significand * 2 ^ e < 2 ^ 24 * 2 ^ e := Nat.mul_lt_mul_of_pos_right hs (Nat.two_pow_pos e)
      _ = 2 ^ 23 * 2 ^ (e + 1) := by ring
      _ ≤ 2 ^ 23 * 2 ^ n := Nat.mul_le_mul_left _ (Nat.pow_le_pow_right two_pos hen)

/-- Below `2^24 · 2^n` no representable magnitude exceeds the largest 24-bit multiple of `2^n`. -/
theorem Representable.le_of_lt {y : Nat} (h : Representable y) {n : Nat} (hy : y < 2 ^ 24 * 2 ^ n) :
    y ≤ (2 ^ 24 - 1) * 2 ^ n := by
  obtain ⟨k, rfl⟩ | hlt := h.dvd_or_lt n
  · rw [mul_comm] at hy ⊢
    have hk : k < 2 ^ 24 := Nat.lt_of_mul_lt_mul_right hy
    exact Nat.mul_le_mul_right _ (by omega)
  · omega

/-! ### The nearest multiple of a power of two -/

/-- `m · 2^(n+1)` is within half of `2^(n+1)` of `x`, and `m` is even if it is exactly half away. -/
def NearestMultiple (x n m : Nat) : Prop :=
  distance x (m * 2 ^ (n + 1)) ≤ 2 ^ n ∧ (distance x (m * 2 ^ (n + 1)) = 2 ^ n → 2 ∣ m)

/-- Two different multiples of `u` are at least `u` apart. -/
theorem le_distance_mul {k m : Nat} (h : k ≠ m) (u : Nat) : u ≤ distance (k * u) (m * u) := by
  unfold distance
  obtain hkm | hmk := Nat.lt_or_gt_of_ne h
  · have := Nat.mul_le_mul_right u hkm
    rw [Nat.succ_mul] at this
    omega
  · have := Nat.mul_le_mul_right u hmk
    rw [Nat.succ_mul] at this
    omega

theorem distance_triangle (x y z : Nat) : distance y z ≤ distance x y + distance x z := by
  unfold distance; omega

theorem NearestMultiple.distance_le {x n m : Nat} (h : NearestMultiple x n m) (k : Nat) :
    distance x (m * 2 ^ (n + 1)) ≤ distance x (k * 2 ^ (n + 1)) := by
  obtain rfl | hkm := eq_or_ne k m
  · exact le_rfl
  · have hgap := le_distance_mul hkm (2 ^ (n + 1))
    have htri := distance_triangle x (k * 2 ^ (n + 1)) (m * 2 ^ (n + 1))
    have hunit : 2 ^ (n + 1) = 2 * 2 ^ n := pow_succ' 2 n
    have hhalf := h.1
    omega

/-- A tie between two multiples happens halfway between neighbours. -/
theorem NearestMultiple.dvd_of_tie {x n m k : Nat} (h : NearestMultiple x n m) (hkm : k ≠ m)
    (htie : distance x (k * 2 ^ (n + 1)) = distance x (m * 2 ^ (n + 1))) :
    2 * distance (k * 2 ^ (n + 1)) (m * 2 ^ (n + 1)) ∣ m * 2 ^ (n + 1) := by
  obtain ⟨hhalf, heven⟩ := h
  have hgap := le_distance_mul hkm (2 ^ (n + 1))
  have htri := distance_triangle x (k * 2 ^ (n + 1)) (m * 2 ^ (n + 1))
  have hunit : 2 ^ (n + 1) = 2 * 2 ^ n := pow_succ' 2 n
  have hneighbours : distance (k * 2 ^ (n + 1)) (m * 2 ^ (n + 1)) = 2 ^ (n + 1) := by omega
  rw [hneighbours]
  exact Nat.mul_dvd_mul_right (heven (by omega)) _

/-! ### What `roundSignificand` answers -/

theorem roundSignificand_of_lt {x : Nat} (h : x < 2 ^ 24) : roundSignificand x = x := if_pos h

/-- Rounding to nearest with ties to even, on quotient and remainder. -/
theorem nearestMultiple_of_remainder {n q r : Nat} (hr : r < 2 ^ (n + 1)) :
    NearestMultiple (q * 2 ^ (n + 1) + r) n (if 2 ^ n < r ∨ (r = 2 ^ n ∧ q % 2 = 1) then q + 1 else q) := by
  have hunit : 2 ^ (n + 1) = 2 * 2 ^ n := pow_succ' 2 n
  unfold NearestMultiple distance
  split
  case isTrue hup =>
    rw [Nat.succ_mul]
    omega
  case isFalse hdown => omega

/-- From 2^24 on the result is the nearest multiple of a unit under which `x` has 24 bits. -/
theorem roundSignificand_nearestMultiple {x : Nat} (h : 2 ^ 24 ≤ x) :
    ∃ n m, roundSignificand x = m * 2 ^ (n + 1) ∧ m ≤ 2 ^ 24 ∧ 2 ^ 23 * 2 ^ (n + 1) ≤ x ∧ NearestMultiple x n m := by
  have hx : x ≠ 0 := by omega
  obtain ⟨n, hlog⟩ : ∃ n, Nat.log2 x = 24 + n := Nat.exists_eq_add_of_le ((Nat.le_log2 hx).2 h)
  have hshift : Nat.log2 x - 23 = n + 1 := by omega
  have hlow : 2 ^ 23 * 2 ^ (n + 1) ≤ x := by
    calc 2 ^ 23 * 2 ^ (n + 1) = 2 ^ Nat.log2 x := by rw [hlog]; ring
      _ ≤ x := Nat.log2_self_le hx
  have hq : x / 2 ^ (n + 1) < 2 ^ 24 := by
    refine Nat.div_lt_of_lt_mul ?_
    calc x < 2 ^ (Nat.log2 x + 1) := Nat.lt_log2_self
      _ = 2 ^ (n + 1) * 2 ^ 24 := by rw [hlog]; ring
  have hnear := nearestMultiple_of_remainder (q := x / 2 ^ (n + 1)) (Nat.mod_lt x (Nat.two_pow_pos (n + 1)))
  rw [Nat.div_add_mod'] at hnear
  refine ⟨n, _, ?_, ?_, hlow, hnear⟩
  · simp only [roundSignificand, Nat.not_lt.2 h, if_false, hshift, Nat.add_sub_cancel, ite_mul]
  · split <;> omega

theorem roundSignificand_representable (x : Nat) : Representable (roundSignificand x) := by
  obtain hlt | hge := Nat.lt_or_ge x (2 ^ 24)
  · rw [roundSignificand_of_lt hlt]
    exact representable_of_lt hlt
  · obtain ⟨n, m, heq, hm, -, -⟩ := roundSignificand_nearestMultiple hge
    rw [heq]
    exact representable_mul_two_pow hm (n + 1)

/-- No representable magnitude is nearer, and in a tie the result is the even one (R15). -/
theorem roundSignificand_nearest (x : Nat) {y : Nat} (hy : Representable y) :
    distance x (roundSignificand x) ≤ distance x y ∧
    (y ≠ roundSignificand x → distance x y = distance x (roundSignificand x) →
      2 * distance y (roundSignificand x) ∣ roundSignificand x) := by
  obtain hlt | hge := Nat.lt_or_ge x (2 ^ 24)
  · rw [roundSignificand_of_lt hlt]
    unfold distance
    exact ⟨by omega, fun hne htie => absurd htie (by omega)⟩
  · obtain ⟨n, m, heq, -, hlow, hnear⟩ := roundSignificand_nearestMultiple hge
    rw [heq]
    obtain ⟨k, rfl⟩ | hbelow := hy.dvd_or_lt (n + 1)
    · rw [mul_comm _ k]
      exact ⟨hnear.distance_le k, fun hne => hnear.dvd_of_tie (fun hkm => hne (hkm ▸ rfl))⟩
    · -- the least multiple of the binade lies between `y` and `x`, so `y` is strictly farther
      have hbinade := hnear.distance_le (2 ^ 23)
      have hstrict : distance x (2 ^ 23 * 2 ^ (n + 1)) < distance x y := by unfold distance; omega
      exact ⟨by omega, fun _ htie => absurd htie (by omega)⟩

/-! ### Overflow -/

/-- From halfway between the largest finite magnitude and 2^128 on, the result reaches 2^128; the tie goes up, since the
largest finite significand is odd. -/
theorem le_roundSignificand_of_halfway {x : Nat} (h : (2 ^ 25 - 1) * 2 ^ 252 ≤ x) :
    2 ^ 24 * 2 ^ 253 ≤ roundSignificand x := by
  by_contra hlt
  have hmax := (roundSignificand_representable x).le_of_lt (Nat.lt_of_not_le hlt)
  obtain ⟨hle, htie⟩ := roundSignificand_nearest x (representable_mul_two_pow le_rfl 253)
  unfold distance at hle htie
  have hlargest : roundSignificand x = (2 ^ 24 - 1) * 2 ^ 253 := by omega
  rw [hlargest] at hle htie
  exact absurd (htie (by decide) (by omega)) (by decide)

theorem roundSignificand_lt_of_below_halfway {x : Nat} (h : x < (2 ^ 25 - 1) * 2 ^ 252) :
    roundSignificand x < 2 ^ 24 * 2 ^ 253 := by
  obtain ⟨hle, -⟩ := roundSignificand_nearest x (representable_mul_two_pow (m := 2 ^ 24 - 1) (by decide) 253)
  unfold distance at hle
  omega

theorem roundMagnitude_of_le {x : Nat} (h : 2 ^ 24 * 2 ^ 253 ≤ roundSignificand x) : roundMagnitude x = .posInf := by
  rw [roundMagnitude, if_pos (by omega)]

theorem roundMagnitude_of_lt {x : Nat} (h : roundSignificand x < 2 ^ 24 * 2 ^ 253) :
    roundMagnitude x = .finite (roundSignificand x : Int) := by
  rw [roundMagnitude, if_neg (by omega)]

/-! ### The binary32 datum of a representable magnitude -/

/-- The non-negative datum with exponent field `e` and fraction field `f` (R92). -/
theorem ofBits_of_toNat {w : Word} {e f : Nat} (he : e < 255) (hf : f < 2 ^ 23) (hw : w.toNat = e * 2 ^ 23 + f) :
    Val32.ofBits w = .finite (binary32Magnitude e f : Int) := by
  have hexp : (w.extractLsb' 23 8).toNat = e := by
    rw [BitVec.extractLsb'_toNat, hw, Nat.shiftRight_eq_div_pow]
    omega
  have hfrac : (w.extractLsb' 0 23).toNat = f := by
    rw [BitVec.extractLsb'_toNat, hw, Nat.shiftRight_eq_div_pow]
    omega
  have hsign : w.getLsbD 31 = false := Nat.testBit_lt_two_pow (by omega)
  simp only [Val32.ofBits, hexp, hfrac, hsign, he.ne, if_false, Bool.false_eq_true]

theorem exists_ofBits_fields {e f : Nat} (he : e < 255) (hf : f < 2 ^ 23) :
    ∃ w : Word, Val32.ofBits w = .finite (binary32Magnitude e f : Int) :=
  ⟨BitVec.ofNatLT (e * 2 ^ 23 + f) (by omega), ofBits_of_toNat he hf (BitVec.toNat_ofNatLT ..)⟩

/-- A subnormal has exponent field 0; any other magnitude below 2^128 is normalised to a 24-bit significand. -/
theorem Representable.exists_ofBits {z : Nat} (h : Representable z) (hz : z < 2 ^ 24 * 2 ^ 253) :
    ∃ w : Word, Val32.ofBits w = .finite (z : Int) := by
  obtain hsub | hnormal := Nat.lt_or_ge z (2 ^ 23)
  · exact exists_ofBits_fields (e := 0) (by decide) hsub
  · have hz0 : z ≠ 0 := by omega
    obtain ⟨n, hlog⟩ : ∃ n, Nat.log2 z = 23 + n := Nat.exists_eq_add_of_le ((Nat.le_log2 hz0).2 hnormal)
    have hlow : 2 ^ 23 * 2 ^ n ≤ z := by
      rw [← pow_add, ← hlog]
      exact Nat.log2_self_le hz0
    have hhigh : z < 2 ^ 24 * 2 ^ n := by
      calc z < 2 ^ (Nat.log2 z + 1) := Nat.lt_log2_self
        _ = 2 ^ 24 * 2 ^ n := by rw [hlog]; ring
    obtain ⟨k, rfl⟩ := (h.dvd_or_lt n).resolve_right (Nat.not_lt.2 hlow)
    rw [mul_comm _ k] at hlow hhigh hz
    have hk23 : 2 ^ 23 ≤ k := Nat.le_of_mul_le_mul_right hlow (Nat.two_pow_pos n)
    have hk24 : k < 2 ^ 24 := Nat.lt_of_mul_lt_mul_right hhigh
    have hn : n < 254 := by
      by_contra hn
      have := Nat.pow_le_pow_right two_pos (Nat.not_lt.1 hn)
      omega
    have hvalue : binary32Magnitude (n + 1) (k - 2 ^ 23) = 2 ^ n * k := by
      rw [binary32Magnitude, if_neg n.succ_ne_zero, Nat.add_sub_cancel, Nat.add_sub_cancel' hk23, mul_comm]
    exact hvalue ▸ exists_ofBits_fields (by omega) (by omega)

end Sys2Proof.Machine

open Sys2Proof Sys2Proof.Machine

/-- Settles O24: nearness from `roundSignificand_nearest`, both sides of the overflow boundary from it, and the datum of
a rounded magnitude from its representability; what `absdiff` does is its definition. -/
theorem roundingIsNearestTiesToEven : Obligations.RoundingIsNearestTiesToEven := by
  unfold Obligations.RoundingIsNearestTiesToEven
  refine ⟨fun x => ⟨roundSignificand_representable x, fun y hy => roundSignificand_nearest x hy⟩, fun x => ⟨?_, ?_⟩,
    fun _ _ => rfl, fun _ => ⟨rfl, rfl, rfl, rfl⟩, rfl, rfl⟩
  · exact fun h => roundMagnitude_of_le (le_roundSignificand_of_halfway h)
  · intro h
    have hlt := roundSignificand_lt_of_below_halfway h
    exact ⟨roundMagnitude_of_lt hlt, (roundSignificand_representable x).exists_ofBits hlt⟩

end

section
/-! PROOFS. What every event keeps (spec 10_state.md R42, R52). `KeptByEvents` names what a property must survive — the
environment's words and events, the clearing of the outputs, a response, a command's effect, a presenting tick — and
`KeptByEvents.step` derives once that every step keeps it. It is used for R42, the whole invariant and the parameters. -/

namespace Sys2Proof.Machine

/-- Everything a performed command can do: fail with a status word alone, or leave its effect and answer OK. -/
theorem exec_next {i : Instr} {s t : State} (h : exec i s = .next t) :
    (∃ st, t = s.respond st []) ∨ ∃ u data, Performs i s u data ∧ t = u.respond .ok data := by
  obtain ⟨st, -, hf⟩ | ⟨u, data, hp, ha⟩ := exec_cases i s (exec_next_wf h)
  · exact .inl ⟨st, State.fail_next (hf ▸ h)⟩
  · exact .inr ⟨u, data, hp, State.answer_next (ha ▸ h)⟩

/-- A property of the state that survives each part of which an event is made. -/
structure KeptByEvents (P : State → Prop) : Prop where
  environment : ∀ {s : State} (es : List Event) (ws : List Word), P s → P { s with events := es, cmd := ws }
  clearOutputs : ∀ {s : State}, P s → P s.clearOutputs
  respond : ∀ {s : State} (st : Status) (data : List Word), P s → P (s.respond st data)
  performs : ∀ {i : Instr} {s t : State} {data : List Word}, Performs i s t data → P s → P t
  presentingTick : ∀ {s : State}, s.capacity ≠ 0 → P s → P (presentingTick s)

namespace KeptByEvents

variable {P : State → Prop} {s t : State}

theorem consumed (hP : KeptByEvents P) (hs : P s) (rest : List Word) : P (s.consumed rest) :=
  hP.environment s.events rest (hP.clearOutputs hs)

theorem exec (hP : KeptByEvents P) {i : Instr} (hs : P s) (h : exec i s = .next t) : P t := by
  obtain ⟨st, rfl⟩ | ⟨u, data, hp, rfl⟩ := exec_next h
  · exact hP.respond st [] hs
  · exact hP.respond .ok data (hP.performs hp hs)

theorem commandTurn (hP : KeptByEvents P) (hs : P s) (h : commandTurn s = .next t) : P t := by
  obtain ⟨-, rfl⟩ | ⟨_, rest, -, rfl⟩ | ⟨i, rest, -, he⟩ := commandTurn_next h
  · exact hs
  · exact hP.respond .errOpcode [] (hP.consumed hs rest)
  · exact hP.exec (hP.consumed hs rest) he

theorem displayTick (hP : KeptByEvents P) (hs : P s) (h : displayTick s = .next t) : P t := by
  obtain ⟨-, rfl⟩ | ⟨-, -, hc, rfl⟩ := displayTick_next h
  · exact hP.clearOutputs hs
  · exact hP.presentingTick hc hs

/-- The reset input writes what SOFT_RESET writes (R241, R280). -/
theorem hardwareReset (hP : KeptByEvents P) (hs : P s) : P s.hardwareReset :=
  hP.environment s.events [] (hP.performs (.softReset s) hs)

theorem step (hP : KeptByEvents P) (hs : P s) (h : step s = .next t) : P t := by
  obtain ⟨-, h⟩ | ⟨ws, es, -, h⟩ | ⟨es, -, h⟩ | ⟨es, -, rfl⟩ := step_next h
  · exact hP.commandTurn hs h
  · exact hP.commandTurn (hP.environment es (s.cmd ++ ws) hs) h
  · exact hP.displayTick (hP.environment es s.cmd hs) h
  · exact hP.hardwareReset (hP.environment es s.cmd hs)

end KeptByEvents

/-! ### What a presenting tick leaves in the registers it writes (R210) -/

/-- Step 4 moves the counters on this tick: no hold tick, and `FR ≥ 0` (R214). -/
def State.advances (s : State) : Bool := !s.ffh && decide (0 ≤ s.fr.toInt)

/-- Step 5 ends the sequence on this tick: FR is below 0 after step 4 (R215). -/
def State.ends (s : State) : Bool := s.sa && decide ((presentingTick s).fr.toInt < 0)

theorem State.advances_iff (s : State) : s.advances = true ↔ s.ffh = false ∧ 0 ≤ s.fr.toInt := by
  simp [State.advances]

theorem State.startFires_iff (s : State) (held : Bool) :
    s.startFires held = true ↔ s.sa = true ∧ s.fr.toInt = (s.fis.toNat : Int) ∧ held = false := by
  simp [State.startFires, and_assoc]

@[simp] theorem presentingTick_params (s : State) : (presentingTick s).params = s.params := by simp [presentingTick]
@[simp] theorem presentingTick_n (s : State) : (presentingTick s).n = s.n := by simp [presentingTick]
@[simp] theorem presentingTick_m (s : State) : (presentingTick s).m = s.m := by simp [presentingTick]
@[simp] theorem presentingTick_capacity (s : State) : (presentingTick s).capacity = s.capacity := by
  simp [presentingTick]
@[simp] theorem presentingTick_loopRun (s : State) : (presentingTick s).loopRun = s.loopRun := by simp [presentingTick]
@[simp] theorem presentingTick_fault (s : State) : (presentingTick s).fault = s.fault := by simp [presentingTick]
@[simp] theorem presentingTick_order (s : State) : (presentingTick s).order = s.order := by simp [presentingTick]
@[simp] theorem presentingTick_fis (s : State) : (presentingTick s).fis = s.fis := by simp [presentingTick]
@[simp] theorem presentingTick_fs (s : State) : (presentingTick s).fs = s.fs := by simp [presentingTick]

@[simp] theorem presentingTick_ffh (s : State) : (presentingTick s).ffh = false := by
  simp [presentingTick]

theorem presentingTick_fr (s : State) : (presentingTick s).fr = if s.advances then s.fr - 1 else s.fr := by
  simp [presentingTick, State.advances_iff]

theorem presentingTick_fr_toInt (s : State) :
    (presentingTick s).fr.toInt = if s.advances then s.fr.toInt - 1 else s.fr.toInt := by
  rw [presentingTick_fr]
  split
  case isTrue h => exact toInt_sub_one ((State.advances_iff s).1 h).2
  case isFalse => rfl

/-- The state that step 5 meets. -/
def beforeEnd (s : State) : State := tickAdvance s.ffh (tickCount (tickSelect (tickStart s.ffh s)))

theorem presentingTick_eq (s : State) : presentingTick s = tickPresent (tickEnd (beforeEnd s)) := rfl

@[simp] theorem beforeEnd_sa (s : State) : (beforeEnd s).sa = s.sa := by simp [beforeEnd]

@[simp] theorem beforeEnd_trig (s : State) : (beforeEnd s).trig = (s.trig || s.startFires s.ffh) := by
  simp [beforeEnd]

@[simp] theorem beforeEnd_mode (s : State) :
    (beforeEnd s).mode = if s.startFires s.ffh then modePlaying else s.mode := by
  simp [beforeEnd]

@[simp] theorem beforeEnd_bi (s : State) :
    (beforeEnd s).bi = if s.trig || s.startFires s.ffh then saturatingSucc s.bi else BitVec.ofInt 32 (-1) := by
  simp [beforeEnd]

/-- The test of step 5 (R215), said of the state before the tick. -/
theorem ends_iff_beforeEnd (s : State) :
    ((beforeEnd s).fr.toInt < 0 ∧ (beforeEnd s).sa = true) ↔ s.ends = true := by
  simp [State.ends, presentingTick_eq, and_comm]

@[simp] theorem presentingTick_sa (s : State) : (presentingTick s).sa = (s.sa && !s.ends) := by
  simp only [presentingTick_eq, tickPresent_sa, tickEnd_sa, ends_iff_beforeEnd]
  cases s.ends <;> simp

@[simp] theorem presentingTick_trig (s : State) :
    (presentingTick s).trig = ((s.trig || s.startFires s.ffh) && !s.ends) := by
  simp only [presentingTick_eq, tickPresent_trig, tickEnd_trig, ends_iff_beforeEnd]
  cases s.ends <;> simp

@[simp] theorem presentingTick_mode (s : State) :
    (presentingTick s).mode = if s.ends then modeIdle else if s.startFires s.ffh then modePlaying else s.mode := by
  simp only [presentingTick_eq, tickPresent_mode, tickEnd_mode, ends_iff_beforeEnd, beforeEnd_mode]

theorem presentingTick_bi_toInt (s : State) :
    (presentingTick s).bi.toInt = if (presentingTick s).trig then min (s.bi.toInt + 1) (2 ^ 31 - 1) else -1 := by
  rw [presentingTick_trig]
  simp only [presentingTick_eq, tickPresent_bi, tickEnd_bi, ends_iff_beforeEnd, beforeEnd_bi]
  cases s.ends
  case true => simp
  case false => cases s.trig || s.startFires s.ffh <;> simp [saturatingSucc_toInt]

theorem presentingTick_ci_toNat (s : State) :
    (presentingTick s).ci.toNat =
      if s.advances then min ((tickStart s.ffh s).ci.toNat + 1) (s.capacity.toNat - 1)
      else (tickStart s.ffh s).ci.toNat := by
  have hcap := s.capacity.isLt
  have hci : (presentingTick s).ci = if s.advances then
      BitVec.ofNat 32 (min ((tickStart s.ffh s).ci.toNat + 1) (s.capacity.toNat - 1))
      else (tickStart s.ffh s).ci := by
    simp [presentingTick, State.advances_iff]
  rw [hci]
  split
  case isTrue => rw [BitVec.toNat_ofNat, Nat.mod_eq_of_lt (by omega)]
  case isFalse => rfl

/-- The slot shown is the order entry of the position after the start test (R212). -/
theorem presentingTick_dispSlot_toNat (s : State) :
    (presentingTick s).dispSlot.toNat =
      (s.orderAt ((tickStart s.ffh s).ci.toNat % s.capacity.toNat)).toNat % s.capacity.toNat := by
  have hle := Nat.mod_le (s.orderAt ((tickStart s.ffh s).ci.toNat % s.capacity.toNat)).toNat s.capacity.toNat
  have hlt := (s.orderAt ((tickStart s.ffh s).ci.toNat % s.capacity.toNat)).isLt
  have hdisp : (presentingTick s).dispSlot = BitVec.ofNat 32
      ((s.orderAt ((tickStart s.ffh s).ci.toNat % s.capacity.toNat)).toNat % s.capacity.toNat) := by
    simp [presentingTick, State.orderAt]
  rw [hdisp, BitVec.toNat_ofNat, Nat.mod_eq_of_lt (by omega)]

end Sys2Proof.Machine
end

section
/-! PROOFS. R42 and the whole invariant (spec 10_state.md R42, R36, R40, R41, R32): they hold after reset, and every
event keeps them. What an event does not touch is carried over by `frame`; a tick is one lemma per clause of R42. -/

namespace Sys2Proof.Machine

/-! ### Reset -/

/-- FR and BI hold -1 after reset, in two's complement (R51). -/
theorem toInt_minus_one : (BitVec.ofInt 32 (-1)).toInt = -1 := by decide

theorem resetWith_r42 {p : Params} (hp : p.ok) : (State.resetWith p).R42 where
  params := hp
  geometry := ⟨Iff.rfl, Nat.zero_le _, Nat.zero_le _, Nat.zero_le _⟩
  loop := nofun
  counters := ⟨toInt_minus_one.ge, toInt_minus_one.trans_le (by simp), Nat.zero_le _⟩
  trigger := ⟨by simp, nofun⟩
  bufferIndex := ⟨fun _ => toInt_minus_one, nofun⟩
  hold := nofun
  idle := fun _ => ⟨rfl, rfl, toInt_minus_one⟩
  mode := ⟨.inl rfl, rfl⟩

theorem resetWith_inv {p : Params} (hp : p.ok) : (State.resetWith p).Inv where
  r42 := resetWith_r42 hp
  position := hp.2.2.1
  shown := .inl rfl
  store := ⟨rfl, rfl⟩
  orderTable := ⟨rfl, rfl⟩

/-! ### What R42 and the invariant do not speak of -/

/-- R42 reads the parameters, the geometry, the capacity, LOOP_RUN, FAULT and the playback registers only. -/
theorem State.R42.frame {s t : State} (h : s.R42)
    (ht : t = { s with lut := t.lut, lutLoaded := t.lutLoaded, code := t.code, codeLoaded := t.codeLoaded,
                       order := t.order, ci := t.ci, dispSlot := t.dispSlot, fs := t.fs, playPulse := t.playPulse,
                       stopPulse := t.stopPulse, present := t.present, rsp := t.rsp, cmd := t.cmd,
                       events := t.events }) : t.R42 := by
  rw [ht]
  exact { h with }

/-- The invariant reads R42's registers, CI, DISP_SLOT, the store and the order table only. -/
theorem State.Inv.frame {s t : State} (h : s.Inv)
    (ht : t = { s with lut := t.lut, lutLoaded := t.lutLoaded, code := t.code, codeLoaded := t.codeLoaded,
                       playPulse := t.playPulse, stopPulse := t.stopPulse, present := t.present, rsp := t.rsp,
                       cmd := t.cmd, events := t.events }) : t.Inv := by
  rw [ht]
  exact { h with r42 := h.r42.frame rfl }

/-! ### R42 under commands -/

theorem ne_zero_iff_one_le_toNat {w : Nat} (x : BitVec w) : x ≠ 0 ↔ 1 ≤ x.toNat := by
  rw [Nat.one_le_iff_ne_zero, ne_eq, ne_eq, BitVec.toNat_eq, BitVec.ofNat_eq_ofNat, BitVec.toNat_zero]

/-- A dimension that R9 allows keeps its value in the 16-bit register (R27). -/
theorem toNat_setWidth_dimension {n : Word} {nMax : Nat} (hn : n.toNat ≤ nMax) (hMax : nMax ≤ 2 ^ 15 - 1) :
    (n.setWidth 16).toNat = n.toNat := by
  rw [BitVec.toNat_setWidth]
  omega

theorem State.R42.geometry_pos {s : State} (h : s.R42) (hn : s.n ≠ 0) : 1 ≤ s.n.toNat ∧ 1 ≤ s.m.toNat :=
  ⟨(ne_zero_iff_one_le_toNat _).1 hn, (ne_zero_iff_one_le_toNat _).1 fun hm => hn (h.geometry.1.2 hm)⟩

/-- SET_GEOMETRY runs with the loop stopped, so only R42(a) is touched (R181). -/
theorem State.R42.setGeometry {s : State} (h : s.R42) {n m : Word} (stopped : s.loopRun = false) (hn : n ≠ 0)
    (hm : m ≠ 0) (nMax : n.toNat ≤ s.params.nMax) (mMax : m.toNat ≤ s.params.mMax) :
    (State.rebuild { s with n := n.setWidth 16, m := m.setWidth 16 }).R42 := by
  obtain ⟨⟨-, hN⟩, ⟨-, hM⟩, -⟩ := h.params
  have hn16 := toNat_setWidth_dimension nMax hN
  have hm16 := toNat_setWidth_dimension mMax hM
  have hn0 : n.setWidth 16 ≠ 0 := (ne_zero_iff_one_le_toNat _).2 (hn16 ▸ (ne_zero_iff_one_le_toNat n).1 hn)
  have hm0 : m.setWidth 16 ≠ 0 := (ne_zero_iff_one_le_toNat _).2 (hm16 ▸ (ne_zero_iff_one_le_toNat m).1 hm)
  obtain ⟨-, -, -, hcap⟩ := h.geometry
  exact { h with
    geometry := ⟨iff_of_false hn0 hm0, hn16.trans_le nMax, hm16.trans_le mMax, hcap⟩
    loop := fun hr => absurd (stopped.symm.trans hr) nofun }

/-- RESIZE runs with the loop stopped, so only R42(a) is touched (R183). -/
theorem State.R42.resize {s : State} (h : s.R42) {cap : Word} (stopped : s.loopRun = false)
    (capMax : cap.toNat ≤ s.params.capMax) : (State.rebuild { s with capacity := cap }).R42 := by
  obtain ⟨hzero, hn, hm, -⟩ := h.geometry
  exact { h with
    geometry := ⟨hzero, hn, hm, capMax⟩
    loop := fun hr => absurd (stopped.symm.trans hr) nofun }

theorem State.R42.startLoop {s : State} (h : s.R42) (capacity : s.capacity ≠ 0) (geometry : s.n ≠ 0) :
    State.R42 { s with loopRun := true } :=
  { h with loop := fun _ => ⟨(ne_zero_iff_one_le_toNat _).1 capacity, h.geometry_pos geometry⟩ }

theorem State.R42.stopLoop {s : State} (h : s.R42) : State.R42 { s with loopRun := false } :=
  { h with loop := nofun }

/-- START_SEQ makes FR equal FIS; a length up to CAP_MAX is not negative in two's complement (R206, R9). -/
theorem State.R42.startSeq {s : State} (h : s.R42) {n : Word} (fits : n.toNat ≤ s.capacity.toNat) :
    State.R42 { s with fis := n, fr := n, sa := true, ffh := true } := by
  obtain ⟨-, -, -, hMax⟩ := h.params
  obtain ⟨-, -, -, hcap⟩ := h.geometry
  have hn : n.toInt = (n.toNat : Int) := BitVec.toInt_eq_toNat_of_lt (by omega)
  have hle : n.toNat ≤ s.params.capMax := fits.trans hcap
  obtain ⟨hplaying, -⟩ := h.trigger
  exact { h with
    counters := ⟨show (-1 : Int) ≤ n.toInt by omega, hn.le, hle⟩
    trigger := ⟨hplaying, fun _ => rfl⟩
    hold := fun _ => ⟨rfl, hn⟩
    idle := nofun }

theorem Performs.keeps_r42 {i : Instr} {s t : State} {data : List Word} (hp : Performs i s t data) (h : s.R42) :
    t.R42 := by
  cases hp
  case softReset => exact (resetWith_r42 h.params).frame rfl
  case setGeometry hn hm stopped nMax mMax => exact h.setGeometry stopped hn hm nMax mMax
  case resize _ stopped capMax => exact h.resize stopped capMax
  case startSeq fits => exact h.startSeq fits
  case startLoop capacity geometry => exact h.startLoop capacity geometry
  case stopLoop => exact h.stopLoop
  all_goals exact h.frame rfl

/-! ### R42 under a presenting tick, clause by clause -/

section Tick

variable {s : State}

/-- The start tick is an advancing one: FR equals FIS, which is not negative. -/
theorem State.startFires_imp (hf : s.startFires s.ffh = true) : s.sa = true ∧ s.advances = true := by
  obtain ⟨hsa, hfr, hffh⟩ := (State.startFires_iff s _).1 hf
  exact ⟨hsa, (State.advances_iff s).2 ⟨hffh, by omega⟩⟩

/-- A tick ends the hold (R214). -/
theorem presentingTick_holdOk (s : State) : (presentingTick s).HoldOk := by
  simp [State.HoldOk]

variable (h : s.R42)
include h

theorem State.R42.tick_counters : (presentingTick s).CountersOk := by
  obtain ⟨hlo, hhi, hmax⟩ := h.counters
  rw [State.CountersOk, presentingTick_fr_toInt, presentingTick_fis, presentingTick_params]
  split
  case isTrue hadv =>
    obtain ⟨-, hfr⟩ := (State.advances_iff s).1 hadv
    exact ⟨by omega, by omega, hmax⟩
  case isFalse => exact ⟨hlo, hhi, hmax⟩

theorem State.R42.tick_trigger : (presentingTick s).TriggerOk := by
  obtain ⟨hplaying, hactive⟩ := h.trigger
  simp only [State.TriggerOk, presentingTick_mode, presentingTick_trig, presentingTick_sa]
  cases s.ends
  case true => simp
  case false =>
    cases hf : s.startFires s.ffh
    case true => simp [(State.startFires_imp hf).1]
    case false => simpa using ⟨hplaying, hactive⟩

theorem State.R42.tick_bufferIndex : (presentingTick s).BufferIndexOk := by
  have hbi : -1 ≤ s.bi.toInt := by
    cases ht : s.trig
    case true => exact le_trans (by decide) (h.bufferIndex.2 ht)
    case false => exact (h.bufferIndex.1 ht).ge
  rw [State.BufferIndexOk, presentingTick_bi_toInt]
  split
  case isTrue ht => exact ⟨fun hf => absurd (hf.symm.trans ht) nofun, fun _ => by omega⟩
  case isFalse ht => exact ⟨fun _ => rfl, fun htrue => absurd htrue ht⟩

/-- SA is 0 after a tick because no sequence was active, and then nothing happened, or because this tick ended it. -/
theorem State.R42.tick_idle : (presentingTick s).IdleOk := by
  intro hsa
  cases hends : s.ends
  case true =>
    have hfr : (presentingTick s).fr.toInt < 0 := by
      simp only [State.ends, Bool.and_eq_true, decide_eq_true_eq] at hends
      exact hends.2
    obtain ⟨hlo, -⟩ := h.tick_counters
    exact ⟨by simp [hends], presentingTick_ffh s, by omega⟩
  case false =>
    have hsa0 : s.sa = false := by simpa [hends] using hsa
    obtain ⟨hmode, -, hfr⟩ := h.idle hsa0
    have hstart : s.startFires s.ffh = false := by simp [State.startFires, hsa0]
    have hadv : s.advances = false := by simp [State.advances, hfr]
    exact ⟨by simp [hends, hstart, hmode], presentingTick_ffh s, by simp [presentingTick_fr_toInt, hadv, hfr]⟩

theorem State.R42.tick_mode : (presentingTick s).ModeOk := by
  obtain ⟨hmode, hfault⟩ := h.mode
  rw [State.ModeOk, presentingTick_mode, presentingTick_fault]
  refine ⟨?_, hfault⟩
  split
  · exact .inl rfl
  · split
    · exact .inr rfl
    · exact hmode

theorem State.R42.presentingTick : (presentingTick s).R42 where
  params := by simpa using h.params
  geometry := by simpa [State.GeometryOk] using h.geometry
  loop := by simpa [State.LoopOk] using h.loop
  counters := h.tick_counters
  trigger := h.tick_trigger
  bufferIndex := h.tick_bufferIndex
  hold := presentingTick_holdOk s
  idle := h.tick_idle
  mode := h.tick_mode

end Tick

theorem r42_keptByEvents : KeptByEvents State.R42 where
  environment _ _ h := h.frame rfl
  clearOutputs h := h.frame rfl
  respond _ _ h := h.frame rfl
  performs hp h := hp.keeps_r42 h
  presentingTick _ h := h.presentingTick

/-! ### The store and the order table under commands -/

/-- A run of bytes that ends inside the last slot stays inside the store (R41, R61). -/
theorem State.StoreOk.writeSlots {s : State} (h : s.StoreOk) {k count : Nat} {bs : List Byte}
    (hk : k + count ≤ s.capacity.toNat) (hbs : bs.length = count * s.frameBytes) : (s.writeSlots k bs).StoreOk := by
  obtain ⟨hwf, hin⟩ := h
  refine ⟨State.writeSlots_wf hwf k bs, Cells.writeList_within hin ?_⟩
  calc s.slotAddr k + bs.length = (k + count) * s.frameBytes := by rw [hbs, State.slotAddr, Nat.add_mul]
    _ ≤ s.storeBytes := Nat.mul_le_mul_right _ hk

theorem State.Inv.writeSlots {s : State} (h : s.Inv) {k count : Nat} {bs : List Byte}
    (hk : k + count ≤ s.capacity.toNat) (hbs : bs.length = count * s.frameBytes) : (s.writeSlots k bs).Inv :=
  { h with r42 := h.r42.frame rfl, store := h.store.writeSlots hk hbs }

/-- The converted payload of INSERT is as long as `count` stored frames, in both layouts (R65, R66, R186). -/
theorem toRGBA_insert_length {layout : BitVec 2} {count : Word} {frames : List Word} {n m : Nat}
    (framed : frames.length = insertWords layout count n m) (legal : layout.toNat < 2) :
    (toRGBA layout (bytesOfWords frames)).length = count.toNat * (16 * n * m) := by
  unfold insertWords at framed
  unfold toRGBA
  split at framed
  case isTrue h0 =>
    have hbytes : (bytesOfWords frames).length = 3 * (count.toNat * (4 * n * m)) := by
      rw [bytesOfWords_length, framed]
      ring
    rw [if_pos h0, zeroAlpha_length hbytes]
    ring
  case isFalse h0 =>
    have h1 : layout = 1 := by bv_omega
    rw [if_pos h1] at framed
    rw [if_neg h0, bytesOfWords_length, framed]
    ring

theorem State.Inv.writeOrder {s : State} (h : s.Inv) {entries : List Word}
    (hlen : entries.length ≤ s.capacity.toNat) : (s.writeOrder entries).Inv := by
  obtain ⟨hwf, hin⟩ := h.orderTable
  obtain ⟨-, -, -, hcap⟩ := h.r42.geometry
  have hbound : 0 + entries.length ≤ s.params.capMax := by omega
  exact { h with
    r42 := h.r42.frame rfl
    orderTable := ⟨Cells.writeList_wf hwf 0 entries, Cells.writeList_within hin hbound⟩ }

theorem Performs.keeps_inv {i : Instr} {s t : State} {data : List Word} (hp : Performs i s t data) (h : s.Inv) :
    t.Inv := by
  have hr42 := hp.keeps_r42 h.r42
  cases hp
  case softReset => exact (resetWith_inv h.r42.params).frame rfl
  case pack slot _ => exact h.writeSlots (count := 1) slot (by simp)
  case insert legal framed slots => exact h.writeSlots slots (toRGBA_insert_length framed legal)
  case setAt framed slot =>
    refine h.writeSlots (count := 1) slot ?_
    rw [bytesOfWords_length, framed, frameWords, State.frameBytes]
    ring
  case setOrder framed fits => exact h.writeOrder (framed.trans_le fits)
  case setGeometry => exact { h with r42 := hr42, store := ⟨rfl, rfl⟩ }
  case resize => exact { h with r42 := hr42, store := ⟨rfl, rfl⟩ }
  case startSeq => exact { h with r42 := hr42 }
  case startLoop => exact { h with r42 := hr42 }
  case stopLoop => exact { h with r42 := hr42 }
  all_goals exact h.frame rfl

/-! ### CI and DISP_SLOT under a presenting tick -/

/-- The start test keeps CI or sets it to 0 (R211). -/
theorem tickStart_ci_toNat_le (held : Bool) (s : State) : (tickStart held s).ci.toNat ≤ s.ci.toNat := by
  rw [tickStart_ci]
  split
  · exact Nat.zero_le _
  · exact le_rfl

/-- CI ends up no greater than it was or no greater than the last slot (R212, R214). -/
theorem State.Inv.tick_position {s : State} (h : s.Inv) (hc : s.capacity ≠ 0) : (presentingTick s).PositionOk := by
  have hpos := h.position
  have hstart := tickStart_ci_toNat_le s.ffh s
  have hcap := (ne_zero_iff_one_le_toNat _).1 hc
  obtain ⟨-, -, -, hmax⟩ := h.r42.geometry
  rw [State.PositionOk, presentingTick_ci_toNat, presentingTick_params]
  split <;> omega

theorem State.Inv.tick_shown {s : State} (h : s.Inv) (hc : s.capacity ≠ 0) : (presentingTick s).ShownOk := by
  have hcap := (ne_zero_iff_one_le_toNat _).1 hc
  obtain ⟨-, -, -, hmax⟩ := h.r42.geometry
  rw [State.ShownOk, presentingTick_dispSlot_toNat, presentingTick_params]
  exact .inr ((Nat.mod_lt _ hcap).trans_le hmax)

theorem State.Inv.presentingTick {s : State} (h : s.Inv) (hc : s.capacity ≠ 0) : (presentingTick s).Inv where
  r42 := h.r42.presentingTick
  position := h.tick_position hc
  shown := h.tick_shown hc
  store := by simpa [State.StoreOk, State.storeBytes, State.frameBytes] using h.store
  orderTable := by simpa [State.OrderOk] using h.orderTable

theorem inv_keptByEvents : KeptByEvents State.Inv where
  environment _ _ h := h.frame rfl
  clearOutputs h := h.frame rfl
  respond _ _ h := h.frame rfl
  performs hp h := hp.keeps_inv h
  presentingTick hc h := h.presentingTick hc

end Sys2Proof.Machine

open Sys2Proof Sys2Proof.Machine

/-- Settles O52: `r42_keptByEvents`, each clause of R42 under a command's effect and under a presenting tick. -/
theorem stepKeepsR42 : Obligations.StepKeepsR42 := fun _ _ => r42_keptByEvents.step

/-- Settles O53: `inv_keptByEvents`, with R42 kept, every write inside the store and the order table, CI and DISP_SLOT
below a capacity. -/
theorem stepKeepsTheInvariant : Obligations.StepKeepsTheInvariant := fun _ _ => inv_keptByEvents.step

/-- Settles O51: the reset state, clause by clause; the model's own parameters meet R9 (`Config.params_ok`). -/
theorem resetMeetsTheInvariant : Obligations.ResetMeetsTheInvariant :=
  ⟨fun _ hp => resetWith_inv hp, resetWith_inv Config.params_ok⟩

end

section
/-! PROOFS. Who writes the tables and control registers (spec 10_state.md R21 to R32, R52, 60_exceptions.md R259): one
lemma per register, each from the list of effects `Performs`; and that nothing writes the parameters. -/

namespace Sys2Proof.Machine

section Writers

variable {i : Instr} {s t : State} {data : List Word}

theorem Performs.params_eq (hp : Performs i s t data) : t.params = s.params := by
  cases hp <;> rfl

variable (hp : Performs i s t data) (hr : i ≠ .softReset)
include hp hr

theorem Performs.lut_eq (hi : ∀ table, i ≠ .setLut table) : t.lut = s.lut ∧ t.lutLoaded = s.lutLoaded := by
  cases hp
  case softReset => exact absurd rfl hr
  case setLut table => exact absurd rfl (hi table)
  all_goals exact ⟨rfl, rfl⟩

theorem Performs.code_eq (hi : ∀ c0 c1, i ≠ .setCode c0 c1) : t.code = s.code ∧ t.codeLoaded = s.codeLoaded := by
  cases hp
  case softReset => exact absurd rfl hr
  case setCode c0 c1 => exact absurd rfl (hi c0 c1)
  all_goals exact ⟨rfl, rfl⟩

theorem Performs.geometry_eq (hi : ∀ n m, i ≠ .setGeometry n m) : t.n = s.n ∧ t.m = s.m := by
  cases hp
  case softReset => exact absurd rfl hr
  case setGeometry => exact absurd rfl (hi _ _)
  all_goals exact ⟨rfl, rfl⟩

theorem Performs.capacity_eq (hi : ∀ cap, i ≠ .resize cap) : t.capacity = s.capacity := by
  cases hp
  case softReset => exact absurd rfl hr
  case resize => exact absurd rfl (hi _)
  all_goals rfl

theorem Performs.loopRun_eq (hstart : i ≠ .startLoop) (hstop : i ≠ .stopLoop) : t.loopRun = s.loopRun := by
  cases hp
  case softReset => exact absurd rfl hr
  case startLoop => exact absurd rfl hstart
  case stopLoop => exact absurd rfl hstop
  all_goals rfl

theorem Performs.order_eq (hi : ∀ len entries, i ≠ .setOrder len entries) : t.order = s.order := by
  cases hp
  case softReset => exact absurd rfl hr
  case setOrder => exact absurd rfl (hi _ _)
  all_goals rfl

/-- No effect sets FAULT: the level-16 assertion never fires (R142, R259). -/
theorem Performs.fault_eq : t.fault = s.fault := by
  cases hp
  case softReset => exact absurd rfl hr
  all_goals rfl

end Writers

/-- The parameters survive every event (R52). -/
theorem params_keptByEvents (p : Params) : KeptByEvents (fun s => s.params = p) where
  environment _ _ h := h
  clearOutputs h := h
  respond _ _ h := h
  performs hp h := hp.params_eq.trans h
  presentingTick _ h := (presentingTick_params _).trans h

end Sys2Proof.Machine

open Sys2Proof Sys2Proof.Machine

/-- Settles O58: a failure sends its status word and writes no register; an effect has one writer lemma per register. -/
theorem registersHaveTheirOwnWriters : Obligations.RegistersHaveTheirOwnWriters := by
  unfold Obligations.RegistersHaveTheirOwnWriters
  intro i s t h hr
  obtain ⟨st, rfl⟩ | ⟨u, data, hp, rfl⟩ := exec_next h
  · exact ⟨fun _ => ⟨rfl, rfl⟩, fun _ => ⟨rfl, rfl⟩, fun _ => ⟨rfl, rfl⟩, fun _ => rfl, fun _ _ => rfl, fun _ => rfl,
      rfl, rfl⟩
  · exact ⟨hp.lut_eq hr, hp.code_eq hr, hp.geometry_eq hr, hp.capacity_eq hr, hp.loopRun_eq hr, hp.order_eq hr,
      hp.fault_eq hr, hp.params_eq⟩

/-- Settles O60: `params_keptByEvents` at the parameters of the state before the step. -/
theorem stepKeepsTheParameters : Obligations.StepKeepsTheParameters :=
  fun s _ => (params_keptByEvents s.params).step rfl

end

section
/-! PROOFS. The reset table (spec 10_state.md R51) and the flag views (R31, R40). -/

namespace Sys2Proof.Machine

/-- The reset input has one outcome (R280). -/
theorem step_rst {s : State} {es : List Event} (he : s.events = .rst :: es) :
    step s = .next (State.hardwareReset { s with events := es }) := by
  simp only [step, performEvent, he]

/-- All three ways into reset leave the reset state of the same hardware, up to the streams and the further events. -/
theorem reset_shape {s r : State}
    (h : r = State.resetWith s.params ∨ exec .softReset s = .next r ∨
      ∃ es, s.events = .rst :: es ∧ step s = .next r) :
    r = { State.resetWith s.params with rsp := r.rsp, cmd := r.cmd, events := r.events } := by
  obtain rfl | h | ⟨es, he, h⟩ := h
  · rfl
  · rw [State.answer_next (s := s.toReset) h]
    rfl
  · rw [step_rst he] at h
    injection h with h
    rw [← h]
    rfl

/-- With a capacity of 0 the store has no bytes (R41). -/
theorem State.storeBytes_of_capacity_zero {s : State} (h : s.capacity = 0) : s.storeBytes = 0 := by
  rw [State.storeBytes, h, BitVec.ofNat_eq_ofNat, BitVec.toNat_zero, Nat.zero_mul]

/-- Which flag each bit of STATUS holds (R31). -/
theorem State.statusView_getLsbD (s : State) (k : Nat) :
    s.statusView.getLsbD k =
      match k with
      | 0 => s.loopRun
      | 1 => s.lutLoaded
      | 2 => s.codeLoaded
      | 3 => s.geomSet
      | 4 => s.fault
      | _ => false := by
  simp only [State.statusView, BitVec.getLsbD_or, flagBit_getLsbD]
  split <;> simp_all

/-- Which flag each bit of SEQ_FLAGS holds (R40). -/
theorem State.seqFlagsView_getLsbD (s : State) (k : Nat) :
    s.seqFlagsView.getLsbD k =
      match k with
      | 0 => s.sa
      | 1 => s.ffh
      | 2 => s.trig
      | _ => false := by
  simp only [State.seqFlagsView, BitVec.getLsbD_or, flagBit_getLsbD]
  split <;> simp_all

/-- GEOM_SET is 1 exactly when N is not 0 (R31). -/
theorem State.geomSet_eq (s : State) : s.geomSet = decide (s.n ≠ 0) := by
  rw [Bool.eq_iff_iff]
  simp [State.geomSet]

end Sys2Proof.Machine

open Sys2Proof Sys2Proof.Machine

/-- Settles O10: each way into reset leaves `State.resetWith` up to the streams (`reset_shape`), whose fields are the
table's rows. -/
theorem resetTable : Obligations.ResetTable := by
  unfold Obligations.ResetTable
  intro s r h
  rw [reset_shape h]
  refine ⟨fun k => Vector.getElem_replicate .., rfl, fun k => Vector.getElem_replicate .., rfl, rfl, rfl, rfl, rfl, rfl,
    fun _ _ => rfl, rfl, toInt_minus_one, rfl, rfl, toInt_minus_one, rfl, rfl, rfl, rfl, ?_, rfl, rfl⟩
  exact State.storeBytes_of_capacity_zero rfl

/-- Settles O15: the bits of the two views, from `flagBit_getLsbD`. -/
theorem flagViewBits : Obligations.FlagViewBits := by
  unfold Obligations.FlagViewBits
  intro s
  refine ⟨⟨s.statusView_getLsbD 0, s.statusView_getLsbD 1, s.statusView_getLsbD 2,
    (s.statusView_getLsbD 3).trans s.geomSet_eq, s.statusView_getLsbD 4, fun k hk => ?_⟩,
    s.seqFlagsView_getLsbD 0, s.seqFlagsView_getLsbD 1, s.seqFlagsView_getLsbD 2, fun k hk => ?_⟩
  · obtain ⟨j, rfl⟩ := Nat.exists_eq_add_of_le' hk
    exact s.statusView_getLsbD (j + 5)
  · obtain ⟨j, rfl⟩ := Nat.exists_eq_add_of_le' hk
    exact s.seqFlagsView_getLsbD (j + 3)

end

section
/-! PROOFS. What an accumulating PACK does to the store (spec 20_memory.md R71, 42_packer.md R154 to R156). The idea: with
`clr = 0` every byte of the store is OR-ed with a mask that depends on the geometry and the codes, not on the store, so
the effects of two packs are two ORs, which commute. -/

namespace Sys2Proof.Machine

/-! ### A PACK that passes its checks -/

/-- The record is framed and none of PACK's failures of R165 applies. -/
structure PackAccepted (s : State) (planes : BitVec 8) (dst : Word) (phase : List Word) : Prop where
  framed : phase.length = packWords planes s.n.toNat s.m.toNat
  geometry : s.n ≠ 0
  lut : s.lutLoaded = true
  table : s.codeLoaded = true
  few : planes.toNat ≤ 24
  slot : dst.toNat < s.capacity.toNat

/-- The state an accepted PACK into slot `k` leaves. -/
def State.afterPack (s : State) (clr : Bool) (codes : List Nibble) (planes k : Nat) : State :=
  (s.writeSlots k (packInto clr codes planes s.n.toNat s.m.toNat (s.slotBytes k))).respond .ok []

theorem PackAccepted.exec_pack {s : State} {planes : BitVec 8} {dst : Word} {phase : List Word} {codes : List Nibble}
    (h : PackAccepted s planes dst phase) (hcodes : codesOf s.lut s.code phase = some codes) (clr : Bool) :
    exec (.pack clr planes dst phase) s = .next (s.afterPack clr codes planes.toNat dst.toNat) := by
  obtain ⟨hframed, hgeometry, hlut, htable, hfew, hslot⟩ := h
  have hwf : (Instr.pack clr planes dst phase).wf s.n.toNat s.m.toNat = true := beq_iff_eq.2 hframed
  have hready : ¬ (s.n = 0 ∨ s.lutLoaded = false ∨ s.codeLoaded = false) := by
    simpa [hlut, htable] using hgeometry
  simp only [exec, execPack, hwf, framed_true, if_neg hready, if_neg (Nat.not_lt.2 hfew), if_neg (Nat.not_le.2 hslot),
    hcodes]
  rfl

/-- PACK writes none of the registers its checks read. -/
theorem PackAccepted.afterPack {s : State} {planes : BitVec 8} {dst : Word} {phase : List Word}
    (h : PackAccepted s planes dst phase) (clr : Bool) (codes : List Nibble) (earlier k : Nat) :
    PackAccepted (s.afterPack clr codes earlier k) planes dst phase :=
  ⟨h.framed, h.geometry, h.lut, h.table, h.few, h.slot⟩

theorem State.afterPack_wf {s : State} (h : Memory.wf s.fs = true) (clr : Bool) (codes : List Nibble)
    (planes k : Nat) : Memory.wf (s.afterPack clr codes planes k).fs = true :=
  State.writeSlots_wf h k _

/-- A byte of the store after a PACK: inside the slot as R160 gives it, elsewhere unchanged. -/
theorem State.byteAt_afterPack {s : State} (h : Memory.wf s.fs = true) (clr : Bool) (codes : List Nibble)
    (planes k a : Nat) :
    (s.afterPack clr codes planes k).byteAt a =
      if s.slotAddr k ≤ a ∧ a < s.slotAddr k + s.frameBytes then
        packedByte clr codes planes s.n.toNat s.m.toNat ((a - s.slotAddr k) / 4 % s.width)
          ((a - s.slotAddr k) / 4 / s.width) ((a - s.slotAddr k) % 4) (s.byteAt a)
      else s.byteAt a := by
  rw [State.afterPack, State.respond_byteAt, State.byteAt_writeSlots h, packInto_length, State.slotBytes_length]
  split
  case isTrue hin =>
    obtain ⟨hlo, hhi⟩ := hin
    have hq : a - s.slotAddr k < (packInto clr codes planes s.n.toNat s.m.toNat (s.slotBytes k)).length := by
      rw [packInto_length, State.slotBytes_length]
      omega
    rw [List.getD_eq_getElem _ _ hq, packInto_getElem, State.slotBytes_getElem, Nat.add_sub_cancel' hlo]
    rfl
  case isFalse => rfl

/-! ### Accumulating -/

/-- With `clr = 0` a byte is OR-ed with what a cleared byte becomes; for alpha that is 255 (R154 to R156). -/
theorem packedByte_accumulate (codes : List Nibble) (planes n m x y c : Nat) (old : Byte) :
    packedByte false codes planes n m x y c old = old ||| packedByte true codes planes n m x y c 0 := by
  unfold packedByte
  split
  case isTrue => exact BitVec.or_allOnes.symm
  case isFalse => simp

/-- What a PACK into slot `k` with `clr = 0` ORs into the byte at address `a`. -/
def State.packMask (s : State) (codes : List Nibble) (planes k a : Nat) : Byte :=
  if s.slotAddr k ≤ a ∧ a < s.slotAddr k + s.frameBytes then
    packedByte true codes planes s.n.toNat s.m.toNat ((a - s.slotAddr k) / 4 % s.width)
      ((a - s.slotAddr k) / 4 / s.width) ((a - s.slotAddr k) % 4) 0
  else 0

/-- The mask does not see what an earlier PACK stored. -/
@[simp] theorem State.afterPack_packMask (s : State) (clr : Bool) (earlierCodes codes : List Nibble)
    (earlier planes j k a : Nat) :
    (s.afterPack clr earlierCodes earlier j).packMask codes planes k a = s.packMask codes planes k a := rfl

/-- An accumulating PACK is one OR per byte of the store (R71). -/
theorem State.byteAt_afterPack_accumulate {s : State} (h : Memory.wf s.fs = true) (codes : List Nibble)
    (planes k a : Nat) :
    (s.afterPack false codes planes k).byteAt a = s.byteAt a ||| s.packMask codes planes k a := by
  rw [State.byteAt_afterPack h, State.packMask]
  split
  case isTrue => exact packedByte_accumulate ..
  case isFalse => exact BitVec.or_zero.symm

/-- Two accumulating PACKs into one slot OR in both masks. -/
theorem State.byteAt_afterPack_accumulate_twice {s : State} (h : Memory.wf s.fs = true) (first second : List Nibble)
    (p q k a : Nat) :
    ((s.afterPack false first p k).afterPack false second q k).byteAt a =
      s.byteAt a ||| s.packMask first p k a ||| s.packMask second q k a := by
  rw [State.byteAt_afterPack_accumulate (State.afterPack_wf h ..), State.byteAt_afterPack_accumulate h,
    State.afterPack_packMask]

end Sys2Proof.Machine

open Sys2Proof Sys2Proof.Machine

/-- Settles O33: all four packs are accepted, since a PACK leaves the registers it checks, and each is one OR per byte
(`State.byteAt_afterPack_accumulate`). -/
theorem accumulatingPacksCommute : Obligations.AccumulatingPacksCommute := by
  unfold Obligations.AccumulatingPacksCommute
  intro s p q dst ph qh hwf hn hlut hcode hdst hp hph hq hqh
  obtain ⟨pcodes, hpcodes⟩ := codesOf_some s.lut s.code ph
  obtain ⟨qcodes, hqcodes⟩ := codesOf_some s.lut s.code qh
  have accP : PackAccepted s p dst ph := ⟨hph, hn, hlut, hcode, hp, hdst⟩
  have accQ : PackAccepted s q dst qh := ⟨hqh, hn, hlut, hcode, hq, hdst⟩
  refine ⟨_, _, _, _, accP.exec_pack hpcodes false, accQ.exec_pack hqcodes false,
    (accQ.afterPack ..).exec_pack hqcodes false, (accP.afterPack ..).exec_pack hpcodes false, fun a => ?_⟩
  simp only [State.byteAt_afterPack_accumulate_twice hwf, State.byteAt_afterPack_accumulate hwf]
  exact ⟨by ac_rfl, by ac_rfl⟩

end

section
/-! PROOFS. A command's packet and its header (spec 30_encoding.md R90, R91, R93). The idea: every packet is a header,
the operand words and the payload (`encode_eq`), and a header is settled by three groups of bits — the opcode byte, the
fields below the format's first must-be-zero bit, and the must-be-zero bits between. `HeaderOf` holds the first two, so
it speaks of legal headers and of those with must-be-zero bits set alike. -/

namespace Sys2Proof

/-! ### The parts of a packet -/

/-- The operation of a command (R93). -/
def Instr.opcode : Instr → Opcode
  | .nop => .nop
  | .softReset => .softReset
  | .readReg _ => .readReg
  | .setLut _ => .setLut
  | .quantize _ => .quantize
  | .setCode _ _ => .setCode
  | .code _ => .code
  | .pack _ _ _ _ => .pack
  | .setGeometry _ _ => .setGeometry
  | .resize _ => .resize
  | .insert _ _ _ _ => .insert
  | .setAt _ _ => .setAt
  | .get _ => .get
  | .setOrder _ _ => .setOrder
  | .startSeq _ => .startSeq
  | .startLoop => .startLoop
  | .stopLoop => .stopLoop

/-- The header fields of a command, in the bits where its header holds them (R91). -/
def Instr.fields : Instr → Word
  | .pack clr planes _ _ => (BitVec.ofBool clr).setWidth 32 <<< 8 ||| planes.setWidth 32
  | .code level => level.setWidth 32
  | .insert layout _ _ _ => layout.setWidth 32
  | _ => 0

/-- The operand words of a command (R93). -/
def Instr.operands : Instr → List Word
  | .readReg a | .pack _ _ a _ | .resize a | .setAt a _ | .get a | .setOrder a _ | .startSeq a => [a]
  | .setGeometry a b | .insert _ a b _ => [a, b]
  | _ => []

/-- The payload words of a command (R93). -/
def Instr.payload : Instr → List Word
  | .setLut table => table.toList
  | .quantize v => [v]
  | .setCode c0 c1 => [c0, c1]
  | .pack _ _ _ ws | .insert _ _ _ ws | .setAt _ ws | .setOrder _ ws => ws
  | _ => []

/-- A packet is a header, operand words and a payload (R90). -/
theorem encode_eq (i : Instr) : encode i = header i.opcode i.fields :: (i.operands ++ i.payload) := by
  cases i <;> rfl

/-- The operand words are the ones `takeOperands` reads. -/
theorem Instr.exists_operands (i : Instr) :
    ∃ a b, i.operands = [a, b].take i.opcode.operandCount ∧
      ∀ ws, takeOperands i.opcode.operandCount (i.operands ++ ws) = some (a, b, ws) := by
  cases i <;> exact ⟨_, _, rfl, fun _ => rfl⟩

/-- The operand words taken are the front of the stream. -/
theorem takeOperands_eq_append {k : Nat} {ws rest : List Word} {a b : Word}
    (h : takeOperands k ws = some (a, b, rest)) : ws = [a, b].take k ++ rest := by
  obtain ⟨rfl, -, -, rfl⟩ | ⟨rfl, -, rfl⟩ | ⟨rfl, rfl⟩ := takeOperands_some h <;> rfl

/-! ### The bits of a header -/

theorem Opcode.firstReservedBit_lt (op : Opcode) : op.firstReservedBit < 24 := by cases op <;> decide

theorem header_getLsbD (op : Opcode) (fields : Word) (k : Nat) :
    (header op fields).getLsbD k = (decide (24 ≤ k) && op.byte.getLsbD (k - 24) || fields.getLsbD k) := by
  by_cases hk : k < 32
  · by_cases h24 : k < 24
    · simp [header, hk, h24, Nat.not_le.mpr h24]
    · simp [header, hk, h24, Nat.le_of_not_lt h24]
  · simp [header, hk, BitVec.getLsbD_of_ge op.byte (k - 24) (by omega)]

/-- The fields stand below the first must-be-zero bit (R91). -/
theorem Instr.fields_getLsbD {i : Instr} {k : Nat} (hk : i.opcode.firstReservedBit ≤ k) :
    i.fields.getLsbD k = false := by
  cases i
  case pack clr planes dst ws =>
    change 9 ≤ k at hk
    simp [Instr.fields, BitVec.getLsbD_of_ge planes k (by omega), show k - 8 ≠ 0 by omega]
  case code level => simp [Instr.fields, BitVec.getLsbD_of_ge level k hk]
  case insert layout _ _ _ => simp [Instr.fields, BitVec.getLsbD_of_ge layout k hk]
  all_goals exact BitVec.getLsbD_zero

/-- The must-be-zero bits of a format are those from its first one up to bit 23 (R91). -/
theorem reservedMask_getLsbD (i : Instr) (k : Nat) :
    (Machine.reservedMask i).getLsbD k = (decide (i.opcode.firstReservedBit ≤ k) && decide (k < 24)) := by
  have hmask : Machine.reservedMask i =
      (BitVec.allOnes (24 - i.opcode.firstReservedBit)).setWidth 32 <<< i.opcode.firstReservedBit := by
    cases i <;> simp only [Machine.reservedMask, Instr.opcode, Opcode.firstReservedBit] <;> decide
  rw [hmask]
  simp only [BitVec.getLsbD_shiftLeft, BitVec.getLsbD_setWidth, BitVec.getLsbD_allOnes]
  grind

theorem headerOpcode_getLsbD (h : Word) (k : Nat) :
    (headerOpcode h).getLsbD k = (decide (k < 8) && h.getLsbD (24 + k)) := by
  simp [headerOpcode]

theorem Opcode.reservedClear_iff (op : Opcode) (h : Word) :
    op.reservedClear h = true ↔ ∀ k, op.firstReservedBit ≤ k → k < 24 → h.getLsbD k = false := by
  simp only [reservedClear, beq_iff_eq]
  constructor
  · intro hz k hk hk24
    have := congrArg (BitVec.getLsbD · (k - op.firstReservedBit)) hz
    simpa [show k - op.firstReservedBit < 24 - op.firstReservedBit by omega, Nat.add_sub_cancel' hk] using this
  · intro hz
    apply BitVec.eq_of_getLsbD_eq
    intro k hk
    simp [hk, hz (op.firstReservedBit + k) (by omega) (by omega)]

/-! ### The header of a command, must-be-zero bits aside -/

/-- The header `h` has the opcode and the fields of the command `i`; of the must-be-zero bits it says nothing. -/
structure HeaderOf (i : Instr) (h : Word) : Prop where
  opcode : headerOpcode h = i.opcode.byte
  fields : ∀ k < i.opcode.firstReservedBit, h.getLsbD k = i.fields.getLsbD k

variable {i : Instr} {h mask : Word}

/-- The encoder writes must-be-zero bits as 0 (R91). -/
theorem header_getLsbD_of_reserved {k : Nat} (hk : i.opcode.firstReservedBit ≤ k) (h24 : k < 24) :
    (header i.opcode i.fields).getLsbD k = false := by
  simp [header_getLsbD, Instr.fields_getLsbD hk, Nat.not_le.mpr h24]

/-- Among a command's headers, the must-be-zero bits are clear exactly in the one the encoder writes (R91). -/
theorem HeaderOf.reservedClear_iff (hh : HeaderOf i h) :
    i.opcode.reservedClear h = true ↔ h = header i.opcode i.fields := by
  rw [Opcode.reservedClear_iff]
  constructor
  · intro hz
    apply BitVec.eq_of_getLsbD_eq
    intro k hk
    rcases Nat.lt_or_ge k 24 with h24 | h24
    · rcases Nat.lt_or_ge k i.opcode.firstReservedBit with hf | hf
      · rw [header_getLsbD, hh.fields k hf, decide_eq_false (Nat.not_le.mpr h24), Bool.false_and, Bool.false_or]
      · rw [hz k hf h24, header_getLsbD_of_reserved hf h24]
    · have := i.opcode.firstReservedBit_lt
      rw [header_getLsbD, Instr.fields_getLsbD (by omega), ← hh.opcode, headerOpcode_getLsbD]
      simp [h24, show k - 24 < 8 by omega]
  · rintro rfl k hk h24
    exact header_getLsbD_of_reserved hk h24

/-- Only must-be-zero bits are set in `mask`. -/
theorem getLsbD_of_not_reserved {k : Nat} (hm : mask &&& Machine.reservedMask i = mask)
    (hk : ¬(i.opcode.firstReservedBit ≤ k ∧ k < 24)) : mask.getLsbD k = false := by
  rw [← hm, BitVec.getLsbD_and, reservedMask_getLsbD, ← Bool.decide_and, decide_eq_false hk, Bool.and_false]

/-- Setting must-be-zero bits leaves opcode and fields (R91). -/
theorem headerOf_header_or (hm : mask &&& Machine.reservedMask i = mask) :
    HeaderOf i (header i.opcode i.fields ||| mask) where
  opcode := by
    apply BitVec.eq_of_getLsbD_eq
    intro k hk
    have := i.opcode.firstReservedBit_lt
    rw [headerOpcode_getLsbD, BitVec.getLsbD_or, getLsbD_of_not_reserved hm (by omega), header_getLsbD,
      Instr.fields_getLsbD (by omega)]
    simp [hk]
  fields k hk := by
    have := i.opcode.firstReservedBit_lt
    rw [BitVec.getLsbD_or, getLsbD_of_not_reserved hm (by omega), header_getLsbD]
    simp [show ¬ 24 ≤ k by omega]

theorem headerOf_header (i : Instr) : HeaderOf i (header i.opcode i.fields) := by
  simpa using headerOf_header_or (i := i) BitVec.zero_and

/-- The encoder's header has no must-be-zero bit that `mask` could share. -/
theorem eq_zero_of_header_or_eq (hm : mask &&& Machine.reservedMask i = mask)
    (he : header i.opcode i.fields ||| mask = header i.opcode i.fields) : mask = 0 := by
  apply BitVec.eq_of_getLsbD_eq
  intro k _
  by_cases hk : i.opcode.firstReservedBit ≤ k ∧ k < 24
  · have hbit := congrArg (BitVec.getLsbD · k) he
    simpa [header_getLsbD_of_reserved hk.1 hk.2] using hbit
  · exact (getLsbD_of_not_reserved hm hk).trans BitVec.getLsbD_zero.symm

/-! ### Reading the fields -/

/-- The fields that the decoder reads from `h` are those of the command (R91). -/
def Instr.ReadFrom (h : Word) : Instr → Prop
  | .pack clr planes _ _ => headerClr h = clr ∧ headerPlanes h = planes
  | .code level => headerLevel h = level
  | .insert layout _ _ _ => headerLayout h = layout
  | _ => True

/-- A field at the low end of a header, bit by bit. -/
theorem extractLsb'_zero_eq_iff {w : Nat} (hw : w ≤ 32) (h : Word) (x : BitVec w) :
    h.extractLsb' 0 w = x ↔ ∀ k < w, h.getLsbD k = (x.setWidth 32).getLsbD k := by
  constructor
  · rintro rfl k hk
    simp [hk, show k < 32 by omega]
  · intro hx
    apply BitVec.eq_of_getLsbD_eq
    intro k hk
    simpa [hk, show k < 32 by omega] using hx k hk

/-- The fields read are the header's bits below the first must-be-zero bit. -/
theorem Instr.readFrom_iff (i : Instr) (h : Word) :
    i.ReadFrom h ↔ ∀ k < i.opcode.firstReservedBit, h.getLsbD k = i.fields.getLsbD k := by
  cases i
  case pack clr planes dst ws =>
    change _ ∧ _ ↔ ∀ k < 8 + 1, _
    rw [Nat.forall_lt_succ_right, and_comm, headerPlanes, extractLsb'_zero_eq_iff (by decide)]
    refine and_congr (forall₂_congr fun k hk => ?_) ?_
    · simp [Instr.fields, hk]
    · simp [Instr.fields, headerClr]
  case code level => exact extractLsb'_zero_eq_iff (by decide) h level
  case insert layout _ _ _ => exact extractLsb'_zero_eq_iff (by decide) h layout
  all_goals exact ⟨fun _ k hk => absurd hk (Nat.not_lt_zero k), fun _ => trivial⟩

theorem headerOf_iff (i : Instr) (h : Word) : HeaderOf i h ↔ headerOpcode h = i.opcode.byte ∧ i.ReadFrom h := by
  rw [Instr.readFrom_iff]
  exact ⟨fun hh => ⟨hh.opcode, hh.fields⟩, fun ⟨ho, hf⟩ => ⟨ho, hf⟩⟩

end Sys2Proof
end

section
/-! PROOFS. Decoding a packet (spec 30_encoding.md R93, R94, R97, R100). The idea: `Opcode.build` and the payload length
say which command has a given operation, fields, operand words and payload (`Opcode.build_some` and its converses). With
the header laws, reading a packet and writing it are then the same equations in the two directions. -/

namespace Sys2Proof

/-! ### Making the command from its parts -/

variable {n m : Nat} {i : Instr} {h a b : Word} {op : Opcode} {payload rest : List Word}

/-- A command made from a payload of R93's length has these parts and is well formed. -/
theorem Opcode.build_some (hb : op.build h a b payload = some i)
    (hl : payload.length = op.payloadWords h a b n m) :
    op = i.opcode ∧ i.ReadFrom h ∧ i.operands = [a, b].take op.operandCount ∧ i.payload = payload ∧
      i.wf n m = true := by
  cases op
  case nop | softReset | readReg | setGeometry | resize | get | startSeq | startLoop | stopLoop =>
    cases hb
    exact ⟨rfl, trivial, rfl, (List.length_eq_zero_iff.mp hl).symm, rfl⟩
  case code =>
    cases hb
    exact ⟨rfl, rfl, rfl, (List.length_eq_zero_iff.mp hl).symm, rfl⟩
  case setLut =>
    simp only [Opcode.build] at hb
    split at hb
    · cases hb
      exact ⟨rfl, trivial, rfl, rfl, rfl⟩
    · exact nomatch hb
  case quantize =>
    obtain ⟨v, rfl⟩ := List.length_eq_one_iff.mp hl
    cases hb
    exact ⟨rfl, trivial, rfl, rfl, rfl⟩
  case setCode =>
    obtain ⟨c0, c1, rfl⟩ := List.length_eq_two.mp hl
    cases hb
    exact ⟨rfl, trivial, rfl, rfl, rfl⟩
  case pack =>
    cases hb
    exact ⟨rfl, ⟨rfl, rfl⟩, rfl, rfl, beq_iff_eq.mpr hl⟩
  case insert =>
    cases hb
    exact ⟨rfl, rfl, rfl, rfl, beq_iff_eq.mpr hl⟩
  case setAt | setOrder =>
    cases hb
    exact ⟨rfl, trivial, rfl, rfl, beq_iff_eq.mpr hl⟩

/-- A command is made again from its parts. -/
theorem Instr.build_of_readFrom (hr : i.ReadFrom h) (ho : i.operands = [a, b].take i.opcode.operandCount) :
    i.opcode.build h a b i.payload = some i := by
  cases i
  case setLut table => simp [Instr.opcode, Instr.payload, Opcode.build, Vector.toList]
  case code level => exact congrArg (fun l => some (Instr.code l)) hr
  case pack clr planes dst phase =>
    obtain ⟨rfl, rfl⟩ := hr
    cases ho
    rfl
  case insert layout offset count frames =>
    cases (show headerLayout h = layout from hr)
    cases ho
    rfl
  all_goals
    cases ho
    rfl

/-- The decoder computes the length of a well-formed command's payload (R93). -/
theorem Instr.payload_length (hr : i.ReadFrom h) (ho : i.operands = [a, b].take i.opcode.operandCount)
    (hw : i.wf n m = true) : i.payload.length = i.opcode.payloadWords h a b n m := by
  cases i
  case setLut table => exact Vector.length_toList
  case pack clr planes dst phase =>
    obtain ⟨-, rfl⟩ := hr
    exact beq_iff_eq.mp hw
  case insert layout offset count frames =>
    cases (show headerLayout h = layout from hr)
    cases ho
    exact beq_iff_eq.mp hw
  case setAt index frame => exact beq_iff_eq.mp hw
  case setOrder len entries =>
    cases ho
    exact beq_iff_eq.mp hw
  all_goals rfl

/-! ### Reading a whole packet -/

/-- The opcode map is read in both directions (R93). -/
theorem Opcode.ofByte_eq_some_iff {x : BitVec 8} : Opcode.ofByte x = some op ↔ x = op.byte := by
  constructor
  · intro hx
    exact (beq_iff_eq.mp (List.find?_some (p := fun o : Opcode => o.byte == x) hx)).symm
  · rintro rfl
    exact Opcode.ofByte_byte op

/-- A packet with the opcode, the fields, the operand words and the payload of a well-formed command is read to its end;
its must-be-zero bits say which of the two answers it gets (R94). -/
theorem decode_of_headerOf (hh : HeaderOf i h) (hw : i.wf n m = true) (rest : List Word) :
    decode n m (h :: (i.operands ++ i.payload) ++ rest) =
      if i.opcode.reservedClear h then .packet i rest else .illegal .reservedBits rest := by
  obtain ⟨hop, hread⟩ := (headerOf_iff i h).mp hh
  obtain ⟨a, b, hab, htake⟩ := i.exists_operands
  have hpay := takeWords_append rest (Instr.payload_length hread hab hw)
  simp only [decode, List.cons_append, List.append_assoc, Opcode.ofByte_eq_some_iff.mpr hop, htake, hpay,
    Instr.build_of_readFrom hread hab]

/-- What `decode_packet` finds of an accepted packet, put together again (R94). -/
theorem decode_packet_parts {ws : List Word} (hd : decode n m ws = .packet i rest) :
    ws = encode i ++ rest ∧ i.wf n m = true := by
  obtain ⟨h, tl, op, a, b, ws', payload, rfl, hop, htake, hpay, hclear, hbuild⟩ := decode_packet hd
  obtain ⟨rfl, hlen⟩ := takeWords_some hpay
  obtain ⟨rfl, hread, hab, rfl, hw⟩ := Opcode.build_some hbuild hlen
  have hh : HeaderOf i h := (headerOf_iff i h).mpr ⟨Opcode.ofByte_eq_some_iff.mp hop, hread⟩
  refine ⟨?_, hw⟩
  rw [hh.reservedClear_iff.mp hclear, takeOperands_eq_append htake, ← hab, encode_eq, List.cons_append,
    List.append_assoc]

end Sys2Proof

open Sys2Proof Sys2Proof.Machine

/-- Settles O1: the encoder's header is a header of its command with every must-be-zero bit clear. -/
theorem decodeOfEncode : Obligations.DecodeOfEncode := by
  unfold Obligations.DecodeOfEncode
  intro n m i rest hw
  have hh := headerOf_header i
  rw [encode_eq, decode_of_headerOf hh hw, if_pos (hh.reservedClear_iff.mpr rfl)]

/-- Settles O2: `decode_packet_parts`, the packet put together again from what the decoder read. -/
theorem encodeOfDecode : Obligations.EncodeOfDecode :=
  fun _ _ _ _ _ => decode_packet_parts

/-- Settles O4: the masked header is a header of the same command (`headerOf_header_or`), so the packet is read to its
end, but it is not the encoder's header. -/
theorem reservedBitsAreIllegal : Obligations.ReservedBitsAreIllegal := by
  unfold Obligations.ReservedBitsAreIllegal
  intro n m i h mask ws rest hw he hmask hm
  obtain ⟨rfl, rfl⟩ := List.cons.inj ((encode_eq i).symm.trans he)
  have hh := headerOf_header_or hm
  have hset : ¬ i.opcode.reservedClear (header i.opcode i.fields ||| mask) = true := fun hclear =>
    hmask (eq_zero_of_header_or_eq hm (hh.reservedClear_iff.mp hclear))
  rw [decode_of_headerOf hh hw, if_neg hset]

/-- Settles O3: no operation has this opcode byte, operation by operation. -/
theorem unknownOpcodeIsIllegal : Obligations.UnknownOpcodeIsIllegal := by
  unfold Obligations.UnknownOpcodeIsIllegal
  intro n m h ws hnot
  have hnone : Opcode.ofByte (headerOpcode h) = none := by
    refine Option.eq_none_iff_forall_ne_some.mpr fun op hop => hnot ?_
    rw [show h.extractLsb' 24 8 = op.byte from Opcode.ofByte_eq_some_iff.mp hop]
    cases op <;> decide
  simp only [decode, hnone]

/-- Settles O5: R100's legal lines are packets of the encoder (O1); `20000200` is a PACK header with bit 9 set (O4), and
`05` names no operation (O3). -/
theorem workedEncodingsDecode : Obligations.WorkedEncodingsDecode := by
  unfold Obligations.WorkedEncodingsDecode
  intro n m payload rest
  have rt (i : Instr) (hw : i.wf n m = true) := decodeOfEncode n m i rest hw
  refine ⟨rt .nop rfl, rt (.readReg 7) rfl, fun hl => ?_, fun hl => ?_, rt (.code 16) rfl, fun hl => ?_,
    rt (.setGeometry 2 1) rfl, rt (.startSeq 3) rfl, fun dst => ?_, ?_⟩
  · exact rt (.pack true 24 2 payload) (beq_iff_eq.mpr hl)
  · exact rt (.pack false 3 0 payload) (beq_iff_eq.mpr hl)
  · have hwords : 2 * 4 * n * m = insertWords 1 2 n m := by
      change _ = 2 * (4 * n * m)
      ring
    exact rt (.insert 1 3 2 payload) (beq_iff_eq.mpr (hl.trans hwords))
  · exact reservedBitsAreIllegal n m (.pack false 0 dst []) _ 0x00000200#32 _ rest (by simp [Instr.wf, packWords]) rfl
      (by decide) (by simp [reservedMask])
  · exact unknownOpcodeIsIllegal n m _ rest (by decide)

end

section
/-! PROOFS. The command agent's turn (spec 30_encoding.md R94 to R97, 10_state.md R48; entries 2, 4 and 6) and the one
response of every framed command (R96). -/

namespace Sys2Proof.Machine

/-- With no event listed the command agent has its turn (entry 2). -/
theorem step_of_no_event {s : State} (he : s.events = []) : step s = commandTurn s := by
  simp only [step, performEvent, he]

theorem step_of_command {s : State} {arrived : List Word} {es : List Event} (he : s.events = .command arrived :: es) :
    step s = commandTurn { s with events := es, cmd := s.cmd ++ arrived } := by
  simp only [step, performEvent, he]

theorem commandTurn_of_packet {s : State} {i : Instr} {rest : List Word}
    (hd : decode s.n.toNat s.m.toNat s.cmd = .packet i rest) : commandTurn s = exec i (s.consumed rest) := by
  simp only [commandTurn, hd]

theorem commandTurn_of_illegal {s : State} {why : Reject} {rest : List Word}
    (hd : decode s.n.toNat s.m.toNat s.cmd = .illegal why rest) :
    commandTurn s = .next ((s.consumed rest).respond .errOpcode []) := by
  simp only [commandTurn, hd, State.fail]

theorem commandTurn_of_incomplete {s : State} (hd : decode s.n.toNat s.m.toNat s.cmd = .incomplete) :
    commandTurn s = .next s := by
  simp only [commandTurn, hd]

/-- The status codes are 0 to 7 (R250). -/
theorem Status.word_toNat_le (st : Status) : st.word.toNat ≤ 7 := by cases st <;> decide

/-- A slot is `4·N·M` words (R27, R65). -/
theorem State.slotWords_length (s : State) (k : Nat) :
    (wordsOfBytes (s.slotBytes k)).length = 4 * s.n.toNat * s.m.toNat := by
  apply wordsOfBytes_length
  rw [State.slotBytes_length, State.frameBytes]
  ring

/-- An effect has as many data words as R93 says. -/
theorem Performs.data_length {i : Instr} {s t : State} {data : List Word} (hp : Performs i s t data) :
    data.length = responseWords i s.n.toNat s.m.toNat := by
  cases hp
  case get => exact State.slotWords_length ..
  all_goals rfl

/-- A misframed record is refused (entry 10). -/
theorem framed_of_false {b : Bool} (hb : b = false) (go : Host.Outcome State Fault Refusal) :
    framed b go = .refused .misframed := by
  rw [hb]
  rfl

end Sys2Proof.Machine

open Sys2Proof Sys2Proof.Machine

/-- Settles O56: a failure sends its status word alone, an effect sends nothing itself (`Performs.rsp_eq`) and has R93's
number of data words. -/
theorem everyCommandAnswersOnce : Obligations.EveryCommandAnswersOnce := by
  unfold Obligations.EveryCommandAnswersOnce
  intro i s hw
  obtain ⟨st, hst, he⟩ | ⟨t, data, hp, he⟩ := exec_cases i s hw
  · exact ⟨_, st.word, [], he, rfl, st.word_toNat_le, fun h0 => absurd (st.word_eq_zero_iff.mp h0) hst, fun _ => rfl⟩
  · refine ⟨_, Status.ok.word, data, he, ?_, Status.ok.word_toNat_le, fun _ => hp.data_length, fun h => absurd rfl h⟩
    exact congrArg (· ++ _) hp.rsp_eq

/-- Settles O6: the two forms of the command agent's turn, each on a packet. -/
theorem stepPerformsDecodedCommand : Obligations.StepPerformsDecodedCommand := by
  unfold Obligations.StepPerformsDecodedCommand
  refine fun s i rest => ⟨fun arrived es he hd => ?_, fun he hd => ?_⟩
  · rw [step_of_command he, commandTurn_of_packet hd]
    rfl
  · rw [step_of_no_event he, commandTurn_of_packet hd]
    rfl

/-- Settles O7: the two forms of the command agent's turn, each on an illegal packet. -/
theorem illegalPacketAnswersErrOpcode : Obligations.IllegalPacketAnswersErrOpcode := by
  unfold Obligations.IllegalPacketAnswersErrOpcode
  refine fun s rest why => ⟨fun arrived es he hd => ?_, fun he hd => ?_⟩
  · rw [step_of_command he, commandTurn_of_illegal hd]
    rfl
  · rw [step_of_no_event he, commandTurn_of_illegal hd]
    rfl

/-- Settles O8: the two forms of the command agent's turn, each without a whole packet. -/
theorem incompletePacketWaits : Obligations.IncompletePacketWaits := by
  unfold Obligations.IncompletePacketWaits
  refine fun s => ⟨fun arrived es he hd => ?_, fun he hd => ?_⟩
  · rw [step_of_command he, commandTurn_of_incomplete hd]
  · rw [step_of_no_event he, commandTurn_of_incomplete hd]

/-- Settles O57: only PACK, INSERT, SET_AT and SET_ORDER have a payload whose length can be wrong, and they go through
`framed`. -/
theorem misframedRecordIsRefused : Obligations.MisframedRecordIsRefused := by
  unfold Obligations.MisframedRecordIsRefused
  intro i s hw
  cases i
  case pack | insert | setAt | setOrder => exact framed_of_false hw _
  all_goals exact nomatch hw

end

section
/-! PROOFS. The ordered less-than of spec 00_scope.md R15 and the rounded distances. The idea: values that are no NaN
lie on one line (`Val32.order`), so what holds of a linear order holds of R15's less-than; and rounding, being to
nearest, is monotone (R135). -/

namespace Sys2Proof.Machine

/-! ### The line of the values -/

/-- Where a value lies from -∞ to +∞. A NaN has no place; `Val32.lt_iff` and `Val32.le_iff` leave it out. -/
def Val32.order : Val32 → WithBot (WithTop Int)
  | .nan => ⊥
  | .negInf => ⊥
  | .finite z => ((z : WithTop Int) : WithBot (WithTop Int))
  | .posInf => ((⊤ : WithTop Int) : WithBot (WithTop Int))

theorem Val32.lt_iff (a b : Val32) : a.lt b = true ↔ a ≠ .nan ∧ b ≠ .nan ∧ a.order < b.order := by
  cases a <;> cases b <;> simp [Val32.lt, Val32.order, -WithBot.coe_top]

theorem Val32.le_iff (a b : Val32) : a.le b ↔ a ≠ .nan ∧ b ≠ .nan ∧ a.order ≤ b.order := by
  refine and_congr_right fun ha => and_congr_right fun hb => ?_
  rw [← Bool.not_eq_true, Val32.lt_iff, ← not_lt]
  simp [ha, hb]

theorem Val32.order_lt {a b : Val32} (h : a.lt b = true) : a.order < b.order := by
  obtain ⟨-, -, hlt⟩ := (Val32.lt_iff a b).mp h
  exact hlt

theorem Val32.lt_trans {a b c : Val32} (hab : a.lt b = true) (hbc : b.lt c = true) : a.lt c = true := by
  obtain ⟨ha, -, hab⟩ := (Val32.lt_iff a b).mp hab
  obtain ⟨-, hc, hbc⟩ := (Val32.lt_iff b c).mp hbc
  exact (Val32.lt_iff a c).mpr ⟨ha, hc, hab.trans hbc⟩

/-- What has a value on either side is neither an infinity nor a NaN. -/
theorem Val32.finite_of_between {a v b : Val32} (ha : a.lt v = true) (hb : v.lt b = true) : ∃ z, v = .finite z := by
  cases v
  case finite z => exact ⟨z, rfl⟩
  case nan => simp [Val32.lt_iff] at ha
  case negInf => simp [Val32.lt_iff, Val32.order] at ha
  case posInf => exact nomatch hb

/-! ### Rounding and the distances -/

/-- Rounding to nearest keeps the order: of two arguments rounded the wrong way round, both would lie at the midpoint of
the results (R135). -/
theorem roundSignificand_mono {x y : Nat} (h : x ≤ y) : roundSignificand x ≤ roundSignificand y := by
  obtain rfl | hne := eq_or_ne x y
  · exact le_rfl
  · obtain ⟨hx, -⟩ := roundSignificand_nearest x (roundSignificand_representable y)
    obtain ⟨hy, -⟩ := roundSignificand_nearest y (roundSignificand_representable x)
    unfold distance at hx hy
    omega

/-- A magnitude above 0 is not rounded to 0: 1, the least subnormal, is its own rounding. -/
theorem roundSignificand_pos {x : Nat} (h : 0 < x) : 0 < roundSignificand x :=
  calc 0 < roundSignificand 1 := by rw [roundSignificand_of_lt (by decide)]; exact Nat.one_pos
    _ ≤ roundSignificand x := roundSignificand_mono h

theorem roundMagnitude_pos {x : Nat} (h : 0 < x) : (Val32.finite 0).lt (roundMagnitude x) = true := by
  have hpos := roundSignificand_pos h
  unfold roundMagnitude
  split
  case isTrue => rfl
  case isFalse => exact decide_eq_true (by omega)

/-- A rounded magnitude is never below that of a smaller one, overflow included (R135). -/
theorem roundMagnitude_not_lt {x y : Nat} (h : x ≤ y) : (roundMagnitude y).lt (roundMagnitude x) = false := by
  have hle := roundSignificand_mono h
  obtain hy | hy := le_or_gt (2 ^ 24 * 2 ^ 253) (roundSignificand y)
  · rw [roundMagnitude_of_le hy]
    rfl
  · rw [roundMagnitude_of_lt hy, roundMagnitude_of_lt (hle.trans_lt hy)]
    exact decide_eq_false (by omega)

/-- The distance of a finite value to another value is above 0, so it is no NaN; to an infinity it is +∞ (R128). -/
theorem absdiff_finite_pos {z : Int} {a : Val32} (hnan : a ≠ .nan) (hne : a ≠ .finite z) :
    (Val32.finite 0).lt (Val32.absdiff (.finite z) a) = true := by
  cases a
  case finite y =>
    have hyz : y ≠ z := fun h => hne (congrArg _ h)
    exact roundMagnitude_pos (by omega)
  case negInf | posInf => rfl
  case nan => exact absurd rfl hnan

end Sys2Proof.Machine
end

section
/-! PROOFS. The quantizer (spec 40_quantizer.md R121 to R135) and the commands SET_LUT and QUANTIZE. The idea: in a
non-decreasing table a value that one bracket holds has every breakpoint on one of its sides
(`NonDecreasing.breakpoint_lt`, `NonDecreasing.lt_breakpoint`). So no second bracket holds it, and a value that is a
breakpoint or lies outside the table is held by none and gets the default. -/

namespace Sys2Proof.Machine

variable {lut : Vector Word 17} {v : Word} {k : Fin 16}

/-! ### What the scan finds -/

theorem bracketHolds_iff : bracketHolds lut v k = true ↔
    (breakpoint lut k.castSucc).lt (Val32.ofBits v) = true ∧ (Val32.ofBits v).lt (breakpoint lut k.succ) = true := by
  rw [bracketHolds, Bool.and_eq_true]

/-- The scan goes from bracket 0 up (R121). -/
theorem firstBracket_eq_some_iff :
    firstBracket lut v = some k ↔ bracketHolds lut v k = true ∧ ∀ j < k, bracketHolds lut v j = false := by
  rw [firstBracket, ← Fin.find?_eq_find?_finRange, Fin.find?_eq_some_iff]

theorem firstBracket_eq_none_iff : firstBracket lut v = none ↔ ∀ k, bracketHolds lut v k = false := by
  rw [firstBracket, ← Fin.find?_eq_find?_finRange, Fin.find?_eq_none_iff]

/-! ### The level -/

theorem quantize_of_none (h : firstBracket lut v = none) : quantize lut v = 0 := by
  rw [quantize, h]

/-- The index of either end fits the five bits of a level. -/
theorem quantize_toNat_of_some (h : firstBracket lut v = some k) :
    (quantize lut v).toNat = if upperNearer lut v k = true then (k.val + 1) % 16 else k.val := by
  have hk := k.isLt
  rw [quantize, h]
  dsimp only
  split <;> rw [BitVec.toNat_ofNat, Nat.mod_eq_of_lt (by omega)]

theorem quantize_toNat_le (lut : Vector Word 17) (v : Word) : (quantize lut v).toNat ≤ 15 := by
  cases h : firstBracket lut v
  case none => simp [quantize_of_none h]
  case some k =>
    rw [quantize_toNat_of_some h]
    split <;> omega

/-- A value held by no bracket has level 0 (R126). -/
theorem quantize_eq_zero (h : ∀ k, ¬ bracketHolds lut v k = true) : quantize lut v = 0 :=
  quantize_of_none (firstBracket_eq_none_iff.mpr fun k => Bool.not_eq_true _ ▸ h k)

/-! ### A value that a bracket holds -/

/-- A bracket that holds a value has room: its ends are in strict order (R127). -/
theorem lt_of_bracketHolds (h : bracketHolds lut v k = true) :
    (breakpoint lut k.castSucc).lt (breakpoint lut k.succ) = true := by
  obtain ⟨hlo, hhi⟩ := bracketHolds_iff.mp h
  exact Val32.lt_trans hlo hhi

theorem finite_of_bracketHolds (h : bracketHolds lut v k = true) : ∃ z, Val32.ofBits v = .finite z := by
  obtain ⟨hlo, hhi⟩ := bracketHolds_iff.mp h
  exact Val32.finite_of_between hlo hhi

theorem NonDecreasing.monotone (hn : NonDecreasing lut) : Monotone fun i => (breakpoint lut i).order := by
  refine Fin.monotone_iff_le_succ.mpr fun k => ?_
  obtain ⟨-, -, hle⟩ := (Val32.le_iff _ _).mp (hn k)
  exact hle

/-- The breakpoints up to the lower end of the bracket lie below the value. -/
theorem NonDecreasing.breakpoint_lt (hn : NonDecreasing lut) (h : bracketHolds lut v k = true) {i : Fin 17}
    (hi : i ≤ k.castSucc) : (breakpoint lut i).order < (Val32.ofBits v).order := by
  obtain ⟨hlo, -⟩ := bracketHolds_iff.mp h
  exact (hn.monotone hi).trans_lt (Val32.order_lt hlo)

/-- The breakpoints from the upper end of the bracket on lie above the value. -/
theorem NonDecreasing.lt_breakpoint (hn : NonDecreasing lut) (h : bracketHolds lut v k = true) {i : Fin 17}
    (hi : k.castSucc < i) : (Val32.ofBits v).order < (breakpoint lut i).order := by
  obtain ⟨-, hhi⟩ := bracketHolds_iff.mp h
  exact (Val32.order_lt hhi).trans_le (hn.monotone (Fin.castSucc_lt_iff_succ_le.mp hi))

theorem NonDecreasing.ne_breakpoint (hn : NonDecreasing lut) (h : bracketHolds lut v k = true) (i : Fin 17) :
    Val32.ofBits v ≠ breakpoint lut i := by
  intro heq
  have horder := congrArg Val32.order heq
  obtain hi | hi := le_or_gt i k.castSucc
  · exact (hn.breakpoint_lt h hi).ne' horder
  · exact (hn.lt_breakpoint h hi).ne horder

/-- No later bracket holds what an earlier one holds: its lower end lies above the value already. -/
theorem NonDecreasing.not_bracketHolds_of_lt (hn : NonDecreasing lut) {j : Fin 16} (hjk : j < k)
    (hj : bracketHolds lut v j = true) : ¬ bracketHolds lut v k = true := fun hk =>
  (hn.breakpoint_lt hk le_rfl).asymm (hn.lt_breakpoint hj (Fin.castSucc_lt_castSucc_iff.mpr hjk))

/-! ### The decision -/

/-- Where the exact distance to the lower end is at most that to the upper end, so are the rounded ones (R135). -/
theorem upperNearer_eq_false {lo z hi : Int} (hlo : breakpoint lut k.castSucc = .finite lo)
    (hv : Val32.ofBits v = .finite z) (hhi : breakpoint lut k.succ = .finite hi) (hz : lo < z) (hz' : z < hi)
    (hnear : z - lo ≤ hi - z) : upperNearer lut v k = false := by
  rw [upperNearer, hlo, hv, hhi]
  exact roundMagnitude_not_lt (by omega)

/-! ### The commands -/

/-- QUANTIZE before any SET_LUT (R132). -/
theorem exec_quantize_of_not_loaded {s : State} (v : Word) (h : s.lutLoaded = false) :
    exec (.quantize v) s = s.fail .errNotCfg := if_pos h

theorem exec_quantize_of_loaded {s : State} (v : Word) (h : s.lutLoaded = true) :
    exec (.quantize v) s = s.answer [(quantize s.lut v).setWidth 32] := if_neg (by simp [h])

end Sys2Proof.Machine

open Sys2Proof Sys2Proof.Machine

/-- Settles O18: the scan's answer is the first matching bracket, and `upperNearer` is the comparison of the rounded
distances. -/
theorem quantizeTakesFirstBracket : Obligations.QuantizeTakesFirstBracket := by
  unfold Obligations.QuantizeTakesFirstBracket
  refine fun lut v => ⟨fun k hk hfirst => ?_, fun hnone => ?_⟩
  · exact quantize_toNat_of_some (firstBracket_eq_some_iff.mpr ⟨hk, hfirst⟩)
  · rw [quantize_of_none (firstBracket_eq_none_iff.mpr hnone)]
    rfl

/-- Settles O19: the level is 0 or an index below 16. -/
theorem quantizeIsAtMostFifteen : Obligations.QuantizeIsAtMostFifteen := quantize_toNat_le

/-- Settles O20: no bracket holds such a value, since what a bracket holds is finite, is no breakpoint, and has the
first breakpoint below and the last above it. -/
theorem quantizeDefaultsToZero : Obligations.QuantizeDefaultsToZero := by
  unfold Obligations.QuantizeDefaultsToZero
  refine fun lut v => ⟨fun hn i heq => ?_, fun hn hbelow => ?_, fun hn habove => ?_, fun hspecial => ?_⟩ <;>
    refine quantize_eq_zero fun k hk => ?_
  · exact hn.ne_breakpoint hk i heq
  · exact (hn.breakpoint_lt hk (Fin.zero_le _)).asymm (Val32.order_lt hbelow)
  · exact (hn.lt_breakpoint hk k.castSucc_lt_last).asymm (Val32.order_lt habove)
  · obtain ⟨z, hz⟩ := finite_of_bracketHolds hk
    simp [hz] at hspecial

/-- Settles O21: of two different brackets one is the later. -/
theorem atMostOneBracketMatches : Obligations.AtMostOneBracketMatches := by
  unfold Obligations.AtMostOneBracketMatches
  refine fun lut v => ⟨fun hn j k hj hk => ?_, fun k hroom => ?_⟩
  · obtain hjk | hjk | hkj := lt_trichotomy j k
    · exact absurd hk (hn.not_bracketHolds_of_lt hjk hj)
    · exact hjk
    · exact absurd hj (hn.not_bracketHolds_of_lt hkj hk)
  · exact Bool.eq_false_iff.mpr fun hk => Bool.eq_false_iff.mp hroom (lt_of_bracketHolds hk)

/-- Settles O22: the value is finite and strictly between the ends, so no end is a NaN or the value itself. -/
theorem matchedDistancesArePositive : Obligations.MatchedDistancesArePositive := by
  unfold Obligations.MatchedDistancesArePositive
  intro lut v k hk
  obtain ⟨hlo, hhi⟩ := bracketHolds_iff.mp hk
  obtain ⟨z, hz⟩ := finite_of_bracketHolds hk
  rw [hz] at hlo hhi ⊢
  obtain ⟨hlo_nan, -, hlo_lt⟩ := (Val32.lt_iff _ _).mp hlo
  obtain ⟨-, hhi_nan, hhi_gt⟩ := (Val32.lt_iff _ _).mp hhi
  exact ⟨absdiff_finite_pos hlo_nan (ne_of_apply_ne Val32.order hlo_lt.ne),
    absdiff_finite_pos hhi_nan (ne_of_apply_ne Val32.order hhi_gt.ne')⟩

/-- Settles O23: rounding is monotone, so the upper end is not strictly nearer after it. -/
theorem roundingKeepsTheLowerEnd : Obligations.RoundingKeepsTheLowerEnd := by
  unfold Obligations.RoundingKeepsTheLowerEnd
  intro lut v k lo z hi hlo hv hhi hz hz' hnear hfirst
  rw [quantize_toNat_of_some hfirst, upperNearer_eq_false hlo hv hhi hz hz' hnear]
  rfl

/-- Settles O16: the packet is the encoder's (O1), and SET_LUT checks nothing. -/
theorem setLutLoadsTheTable : Obligations.SetLutLoadsTheTable :=
  ⟨fun n m table ws => decodeOfEncode n m (.setLut table) ws rfl, fun _ _ => rfl⟩

/-- Settles O17: the packet is the encoder's (O1); a level keeps its value, at most 15, in the 32-bit data word. -/
theorem quantizeAnswersTheLevel : Obligations.QuantizeAnswersTheLevel := by
  unfold Obligations.QuantizeAnswersTheLevel
  refine ⟨fun n m v ws => decodeOfEncode n m (.quantize v) ws rfl, fun v s => ⟨fun h => ?_, fun h => ⟨?_, ?_⟩⟩⟩
  · exact exec_quantize_of_not_loaded v h
  · exact exec_quantize_of_loaded v h
  · rw [BitVec.toNat_setWidth_of_le (by decide)]
    exact quantize_toNat_le s.lut v

end

section
/-! PROOFS. The code table and the commands SET_CODE and CODE (spec 41_codetable.md R140 to R145). The idea: the table
that SET_CODE loads is one function of the level (`codeTableOf_eq_ofFn`), and CODE has one equation per answer. -/

namespace Sys2Proof

/-- A CD header of CODE: the opcode byte, nineteen must-be-zero bits and the level (R91). -/
theorem headerCD_code (level : Level) : headerCD .code level = 0x190000#24 ++ 0#3 ++ level := by
  revert level
  decide

end Sys2Proof

namespace Sys2Proof.Machine

variable {s : State} {level : Level}

/-- The payload's nibbles in the order of their levels (R143). -/
theorem codeTableOf_eq_ofFn (c0 c1 : Word) :
    codeTableOf c0 c1 =
      Vector.ofFn fun L : Fin 16 => if L.val < 8 then payloadNibble c0 L.val else payloadNibble c1 (L.val - 8) := rfl

theorem codeTableOf_getElem (c0 c1 : Word) (L : Fin 16) :
    (codeTableOf c0 c1)[L.val] = if L.val < 8 then payloadNibble c0 L.val else payloadNibble c1 (L.val - 8) := by
  rw [codeTableOf_eq_ofFn, Vector.getElem_ofFn]

/-- A level up to 15 has its entry (R140). -/
theorem codeLookup_of_lt (table : Vector Nibble 16) (h : level.toNat < 16) :
    codeLookup table level = some table[level.toNat] := dif_pos h

/-- A level above 15 has no code (R142). -/
theorem codeLookup_of_fifteen_lt (table : Vector Nibble 16) (h : 15 < level.toNat) : codeLookup table level = none :=
  dif_neg (by omega)

/-! ### The commands -/

/-- CODE before any SET_CODE (R145). -/
theorem exec_code_of_not_loaded (level : Level) (hs : s.codeLoaded = false) :
    exec (.code level) s = s.fail .errNotCfg := if_pos hs

/-- CODE of a level above 15 (R145). -/
theorem exec_code_of_fifteen_lt (hs : s.codeLoaded = true) (h : 15 < level.toNat) :
    exec (.code level) s = s.fail .errLevel := by
  change execCode level s = _
  simp [execCode, hs, codeLookup_of_fifteen_lt s.code h]

theorem exec_code_of_lt (hs : s.codeLoaded = true) (h : level.toNat < 16) :
    exec (.code level) s = s.answer [s.code[level.toNat].setWidth 32] := by
  change execCode level s = _
  simp [execCode, hs, codeLookup_of_lt s.code h]

end Sys2Proof.Machine

open Sys2Proof Sys2Proof.Machine

/-- Settles O25: the packet is the encoder's (O1), and SET_CODE, which checks nothing, loads `codeTableOf`. -/
theorem setCodeLoadsTheNibbles : Obligations.SetCodeLoadsTheNibbles := by
  unfold Obligations.SetCodeLoadsTheNibbles
  refine ⟨fun n m c0 c1 ws => decodeOfEncode n m (.setCode c0 c1) ws rfl, fun c0 c1 s => ?_⟩
  exact ⟨codeTableOf c0 c1, rfl, codeTableOf_getElem c0 c1⟩

/-- Settles O26: the packet is the encoder's (O1), and the three equations of CODE give the three answers. -/
theorem codeAnswersTheEntry : Obligations.CodeAnswersTheEntry := by
  unfold Obligations.CodeAnswersTheEntry
  refine ⟨fun n m level ws => ?_, fun level s => ⟨fun hs => ?_, fun hs h => ?_, fun hs h => ?_⟩⟩
  · rw [← headerCD_code]
    exact decodeOfEncode n m (.code level) ws rfl
  · exact exec_code_of_not_loaded level hs
  · exact exec_code_of_fifteen_lt hs h
  · exact exec_code_of_lt hs h

end

section
/-! PROOFS. The packed frame bit by bit (spec 42_packer.md R151 to R160). The idea: a byte of the frame is `F[x, y, c]`
for one `x`, `y` and `c` (`frameIndex_inj`, `exists_frameIndex`), and a colour bit `b` of it belongs to plane `8c+b` alone
(`channel_bit_eq_iff`), so R160 gives each bit by one code bit (`frameBit_packInto`, `newByte_getLsbD`). -/

namespace Sys2Proof.Machine

/-! ### The plane and corner maps -/

theorem colorChannel_lt_three (p : Nat) : colorChannel p < 3 := by
  unfold colorChannel
  omega

theorem bitOffset_lt_eight (p : Nat) : bitOffset p < 8 := Nat.mod_lt p (by decide)

/-- A plane is the colour bit `8·channel + bit`, and that bit is no other plane's (R151). -/
theorem channel_bit_eq_iff {p c b : Nat} (hp : p < 24) (hb : b < 8) :
    colorChannel p = c ∧ bitOffset p = b ↔ p = 8 * c + b := by
  unfold colorChannel bitOffset
  omega

/-! ### Places in a frame -/

section FrameIndex

variable {w n m x y c : Nat}

theorem frameIndex_mod_four (hc : c < 4) : frameIndex w x y c % 4 = c := by
  unfold frameIndex
  omega

theorem frameIndex_div_four (hc : c < 4) : frameIndex w x y c / 4 = y * w + x := by
  unfold frameIndex
  omega

theorem frameIndex_column (hx : x < w) (hc : c < 4) : frameIndex w x y c / 4 % w = x := by
  rw [frameIndex_div_four hc, Nat.mul_add_mod', Nat.mod_eq_of_lt hx]

theorem frameIndex_row (hx : x < w) (hc : c < 4) : frameIndex w x y c / 4 / w = y := by
  rw [frameIndex_div_four hc, Nat.mul_comm, Nat.mul_add_div (Nat.zero_lt_of_lt hx), Nat.div_eq_of_lt hx, Nat.add_zero]

/-- No two bytes of an image share a place (R62). -/
theorem frameIndex_inj {x' y' c' : Nat} (hx : x < w) (hx' : x' < w) (hc : c < 4) (hc' : c' < 4) :
    frameIndex w x y c = frameIndex w x' y' c' ↔ x = x' ∧ y = y' ∧ c = c' := by
  refine ⟨fun h => ⟨?_, ?_, ?_⟩, fun ⟨hx, hy, hc⟩ => by rw [hx, hy, hc]⟩
  · exact (frameIndex_column hx hc).symm.trans (h ▸ frameIndex_column hx' hc')
  · exact (frameIndex_row hx hc).symm.trans (h ▸ frameIndex_row hx' hc')
  · exact (frameIndex_mod_four hc).symm.trans (h ▸ frameIndex_mod_four hc')

/-- The bytes of the image lie in its `16·N·M` bytes (R27, R62). -/
theorem frameIndex_lt (hx : x < 2 * n) (hy : y < 2 * m) (hc : c < 4) : frameIndex (2 * n) x y c < 16 * n * m := by
  have hrows : (y + 1) * (2 * n) ≤ 2 * m * (2 * n) := Nat.mul_le_mul_right _ hy
  unfold frameIndex
  linarith

/-- Every byte of a frame is a byte of the image (R62). -/
theorem exists_frameIndex {q : Nat} (hq : q < 16 * n * m) :
    ∃ x y c, x < 2 * n ∧ y < 2 * m ∧ c < 4 ∧ q = frameIndex (2 * n) x y c := by
  have hn : 0 < 2 * n := by
    rcases Nat.eq_zero_or_pos n with rfl | hn
    · simp at hq
    · omega
  refine ⟨q / 4 % (2 * n), q / 4 / (2 * n), q % 4, Nat.mod_lt _ hn, ?_, Nat.mod_lt _ (by decide), ?_⟩
  · rw [Nat.div_lt_iff_lt_mul hn, Nat.div_lt_iff_lt_mul (by decide)]
    linarith
  · rw [frameIndex, Nat.div_add_mod', Nat.div_add_mod']

end FrameIndex

/-! ### Bits of frames -/

/-- Bit `b` of byte `q` of a frame. -/
def frameBit (frame : List Byte) (q b : Nat) : Bool := (frame.getD q 0#8).getLsbD b

/-- A frame is its bits. -/
theorem frame_ext {f g : List Byte} (hlen : f.length = g.length)
    (h : ∀ q b, q < f.length → b < 8 → frameBit f q b = frameBit g q b) : f = g := by
  refine List.ext_getElem hlen fun q hf hg => BitVec.eq_of_getLsbD_eq fun b hb => ?_
  simpa [frameBit, hf, hg] using h q b hf hb

section FrameBit

variable {frame : List Byte} {q : Nat}

theorem frameBit_set (hq : q < frame.length) (i : Nat) (value : Byte) (b : Nat) :
    frameBit (frame.set i value) q b = if q = i then value.getLsbD b else frameBit frame q b := by
  by_cases h : q = i
  · simp [frameBit, h, h ▸ hq]
  · simp [frameBit, h, Ne.symm h]

theorem frameBit_orByte (hq : q < frame.length) (w x y c : Nat) (value : Byte) (b : Nat) :
    frameBit (orByte w x y c value frame) q b =
      (frameBit frame q b || decide (q = frameIndex w x y c) && value.getLsbD b) := by
  by_cases h : q = frameIndex w x y c
  · simp [frameBit, orByte, ← h, hq]
  · simp [frameBit, orByte, h, hq, Ne.symm h]

end FrameBit

/-! ### The closed form -/

section ClosedForm

variable {codes : List Nibble} {planes n m x y c b : Nat} {frame : List Byte}

theorem planeBit_getLsbD {b' : Nat} (hb' : b' < 8) (p i j k : Nat) :
    (planeBit codes planes n m p i j k b).getLsbD b' =
      (decide (b' = b) && (decide (p < planes) && (codeAt codes n m p i j).getLsbD k)) := by
  have hone : (1#8 <<< b).getLsbD b' = decide (b' = b) := by
    rw [BitVec.getLsbD_shiftLeft, BitVec.getLsbD_one]
    grind
  unfold planeBit
  split
  case isTrue h => rw [hone, h, Bool.and_true]
  case isFalse h => rw [Bool.eq_false_of_not_eq_true h, Bool.and_false, BitVec.getLsbD_zero]

/-- OR-ing a run of bytes ORs each bit. -/
theorem foldl_or_getLsbD (l : List Nat) (g : Nat → Byte) (acc : Byte) (b : Nat) :
    (l.foldl (fun acc k => acc ||| g k) acc).getLsbD b = (acc.getLsbD b || l.any fun k => (g k).getLsbD b) := by
  induction l generalizing acc with
  | nil => simp
  | cons k l ih => simp [ih, Bool.or_assoc]

/-- Of the planes of a channel only plane `8c+b` reaches bit `b` (R160). -/
theorem newByte_getLsbD (hb : b < 8) :
    (newByte codes planes n m x y c).getLsbD b =
      (decide (8 * c + b < planes) &&
        (codeAt codes n m (8 * c + b) (x / 2) (y / 2)).getLsbD (kmap (x % 2) (y % 2))) := by
  rw [newByte, foldl_or_getLsbD, BitVec.getLsbD_zero, Bool.false_or, Bool.eq_iff_iff, List.any_eq_true]
  simp only [planeBit_getLsbD hb, Bool.and_eq_true, decide_eq_true_eq, List.mem_range]
  exact ⟨fun ⟨_, _, hk, h⟩ => hk ▸ h, fun h => ⟨b, hb, rfl, h⟩⟩

/-- A colour byte is kept or cleared, and gets the new bits (R154, R156). -/
theorem packedByte_getLsbD (hc : c < 3) (clr : Bool) (old : Byte) :
    (packedByte clr codes planes n m x y c old).getLsbD b =
      ((!clr && old.getLsbD b) || (newByte codes planes n m x y c).getLsbD b) := by
  rw [packedByte, if_neg (by omega), BitVec.getLsbD_or]
  cases clr <;> simp

/-- Byte `F[x, y, c]` of the packed frame (R160). -/
theorem packInto_getD_frameIndex (hlen : frame.length = 16 * n * m) (hx : x < 2 * n) (hy : y < 2 * m) (hc : c < 4)
    (clr : Bool) :
    (packInto clr codes planes n m frame).getD (frameIndex (2 * n) x y c) 0#8 =
      packedByte clr codes planes n m x y c (frame.getD (frameIndex (2 * n) x y c) 0#8) := by
  have hq : frameIndex (2 * n) x y c < frame.length := hlen ▸ frameIndex_lt hx hy hc
  rw [List.getD_eq_getElem _ _ (by rwa [packInto_length]), packInto_getElem, List.getD_eq_getElem _ _ hq,
    frameIndex_column hx hc, frameIndex_row hx hc, frameIndex_mod_four hc]

theorem frameBit_packInto (hlen : frame.length = 16 * n * m) (hx : x < 2 * n) (hy : y < 2 * m) (hc : c < 3)
    (clr : Bool) :
    frameBit (packInto clr codes planes n m frame) (frameIndex (2 * n) x y c) b =
      ((!clr && frameBit frame (frameIndex (2 * n) x y c) b) || (newByte codes planes n m x y c).getLsbD b) := by
  rw [frameBit, packInto_getD_frameIndex hlen hx hy (by omega), packedByte_getLsbD hc]
  rfl

/-- Alpha is 255 (R155). -/
theorem frameBit_packInto_alpha (hlen : frame.length = 16 * n * m) (hx : x < 2 * n) (hy : y < 2 * m) (clr : Bool) :
    frameBit (packInto clr codes planes n m frame) (frameIndex (2 * n) x y 3) b = (0xFF#8).getLsbD b := by
  rw [frameBit, packInto_getD_frameIndex hlen hx hy (by decide)]
  rfl

end ClosedForm

end Sys2Proof.Machine
end

section
/-! PROOFS. The two evaluation orders of the packer (spec 42_packer.md R158, R161, R162). The idea: each loop writes a
set of bits with values that do not depend on the order (`WritesBits`), and nested loops take unions of these sets
(`WritesBits.loop`). So each form is compared with the closed form one bit of `F[x, y, c]` at a time. -/

namespace Sys2Proof.Machine

/-! ### What a loop writes -/

/-- `op` writes the bits `S` of a frame, bit `b` of byte `q` with the value `v q b`, and keeps the others. -/
structure WritesBits (op : List Byte → List Byte) (S : Nat → Nat → Prop) (v : Nat → Nat → Bool) : Prop where
  length : ∀ frame, (op frame).length = frame.length
  written : ∀ {frame q b}, q < frame.length → S q b → frameBit (op frame) q b = v q b
  kept : ∀ {frame q b}, q < frame.length → ¬ S q b → frameBit (op frame) q b = frameBit frame q b

namespace WritesBits

variable {op op' : List Byte → List Byte} {S S' : Nat → Nat → Prop} {v : Nat → Nat → Bool}

theorem nothing (hS : ∀ q b, ¬ S q b) : WritesBits (fun frame => frame) S v :=
  ⟨fun _ => rfl, fun _ h => absurd h (hS _ _), fun _ _ => rfl⟩

/-- Two writes with the same values are one write of the union. -/
theorem comp (h' : WritesBits op' S' v) (h : WritesBits op S v) :
    WritesBits (fun frame => op' (op frame)) (fun q b => S q b ∨ S' q b) v where
  length frame := (h'.length _).trans (h.length frame)
  written {frame q b} hq hS := by
    have hq' : q < (op frame).length := (h.length frame).symm ▸ hq
    by_cases hS' : S' q b
    · exact h'.written hq' hS'
    · rw [h'.kept hq' hS', h.written hq (hS.resolve_right hS')]
  kept {frame q b} hq hS := by
    have hq' : q < (op frame).length := (h.length frame).symm ▸ hq
    rw [h'.kept hq' (hS ∘ .inr), h.kept hq (hS ∘ .inl)]

theorem congr (h : WritesBits op S v) (hS : ∀ q b, S' q b ↔ S q b) : WritesBits op S' v :=
  (funext₂ fun q b => propext (hS q b) : S' = S) ▸ h

/-- A loop whose iterations write the same values writes what they write together (R158, R162). -/
theorem loop {step : List Byte → Nat → List Byte} {S : Nat → Nat → Nat → Prop}
    (k : Nat) (h : ∀ a < k, WritesBits (fun frame => step frame a) (S a) v) :
    WritesBits (fun frame => (List.range k).foldl step frame) (fun q b => ∃ a < k, S a q b) v := by
  induction k with
  | zero => exact nothing (by simp)
  | succ k ih =>
    have hlast := h k k.lt_succ_self
    have hbefore := ih fun a ha => h a (ha.trans k.lt_succ_self)
    simp only [List.range_succ, List.foldl_append, List.foldl_cons, List.foldl_nil]
    exact (hlast.comp hbefore).congr fun q b => Nat.exists_lt_succ_right

theorem of_set (i : Nat) {value : Byte} (hv : ∀ b, v i b = value.getLsbD b) :
    WritesBits (fun frame => frame.set i value) (fun q _ => q = i) v where
  length _ := List.length_set
  written hq hS := by rw [frameBit_set hq, if_pos hS, hS, hv]
  kept hq hS := by rw [frameBit_set hq, if_neg hS]

theorem of_orByte (w x y c : Nat) (value : Byte) :
    WritesBits (orByte w x y c value) (fun q b => q = frameIndex w x y c ∧ value.getLsbD b = true)
      (fun _ _ => true) where
  length _ := List.length_modify ..
  written hq hS := by rw [frameBit_orByte hq, decide_eq_true hS.1, hS.2, Bool.and_true, Bool.or_true]
  kept {_ q b} hq hS := by
    have hno : (decide (q = frameIndex w x y c) && value.getLsbD b) = false := by simpa using hS
    rw [frameBit_orByte hq, hno, Bool.or_false]

end WritesBits

/-! ### The sequential loops -/

theorem scalarClear_writesBits (n m : Nat) :
    WritesBits (scalarClear n m)
      (fun q _ => ∃ y < 2 * m, ∃ x < 2 * n, ∃ c < 3, q = frameIndex (2 * n) x y c) (fun _ _ => false) :=
  .loop _ fun _ _ => .loop _ fun _ _ => .loop _ fun _ _ => .of_set _ fun _ => BitVec.getLsbD_zero.symm

theorem scalarAlpha_writesBits (n m : Nat) :
    WritesBits (scalarAlpha n m) (fun q _ => ∃ y < 2 * m, ∃ x < 2 * n, q = frameIndex (2 * n) x y 3)
      (fun _ b => (0xFF#8).getLsbD b) :=
  .loop _ fun _ _ => .loop _ fun _ _ => .of_set _ (value := 0xFF#8) (by intro; rfl)

theorem codeBit_getLsbD {code : Nibble} {k off b : Nat} (hoff : off < 8) :
    (codeBit code k off).getLsbD b = true ↔ b = off ∧ code.getLsbD k = true := by
  simp only [codeBit, BitVec.getLsbD_shiftLeft, BitVec.getLsbD_setWidth, BitVec.getLsbD_ofBool]
  grind

/-- The bit that plane `p` sets at the corner `(dx, dy)` of the block of logical pixel `(i, j)`, if the code has it
(R153, R154). -/
def CornerBit (codes : List Nibble) (n m p i j dx dy q b : Nat) : Prop :=
  q = frameIndex (2 * n) (2 * i + dx) (2 * j + dy) (colorChannel p) ∧ b = bitOffset p ∧
    (codeAt codes n m p i j).getLsbD (kmap dx dy) = true

theorem orByte_codeBit_writesBits (codes : List Nibble) (n m p i j dx dy : Nat) :
    WritesBits (orByte (2 * n) (2 * i + dx) (2 * j + dy) (colorChannel p)
      (codeBit (codeAt codes n m p i j) (kmap dx dy) (bitOffset p))) (CornerBit codes n m p i j dx dy)
      (fun _ _ => true) :=
  (WritesBits.of_orByte ..).congr fun q b => by
    rw [CornerBit, codeBit_getLsbD (bitOffset_lt_eight p)]

/-- The four updates of the innermost loop are the four corners (R153, R158). -/
theorem orCorners_writesBits (codes : List Nibble) (n m p i j : Nat) :
    WritesBits (orCorners n i j (colorChannel p) (bitOffset p) (codeAt codes n m p i j))
      (fun q b => ∃ dx < 2, ∃ dy < 2, CornerBit codes n m p i j dx dy q b) (fun _ _ => true) := by
  have corner (dx dy : Nat) := orByte_codeBit_writesBits codes n m p i j dx dy
  refine WritesBits.congr ((corner 1 0).comp ((corner 1 1).comp ((corner 0 0).comp (corner 0 1)))) fun q b => ?_
  simp only [Nat.exists_lt_succ_right, Nat.not_lt_zero, false_and, exists_false, false_or]
  tauto

theorem scalarAccumulate_writesBits (codes : List Nibble) (planes n m : Nat) :
    WritesBits (scalarAccumulate codes planes n m)
      (fun q b => ∃ p < planes, ∃ j < m, ∃ i < n, ∃ dx < 2, ∃ dy < 2, CornerBit codes n m p i j dx dy q b)
      (fun _ _ => true) :=
  .loop _ fun p _ => .loop _ fun j _ => .loop _ fun i _ => orCorners_writesBits codes n m p i j

section Orders

variable {codes : List Nibble} {planes n m x y c b : Nat} {frame : List Byte}

/-- The planes set exactly the bits of R160's `new`, each bit by one corner of one logical pixel. -/
theorem exists_cornerBit_iff (hplanes : planes ≤ 24) (hx : x < 2 * n) (hy : y < 2 * m) (hc : c < 4) (hb : b < 8) :
    (∃ p < planes, ∃ j < m, ∃ i < n, ∃ dx < 2, ∃ dy < 2,
        CornerBit codes n m p i j dx dy (frameIndex (2 * n) x y c) b) ↔
      (newByte codes planes n m x y c).getLsbD b = true := by
  rw [newByte_getLsbD hb, Bool.and_eq_true, decide_eq_true_eq]
  constructor
  · rintro ⟨p, hp, j, hj, i, hi, dx, hdx, dy, hdy, hq, hoff, hcode⟩
    have hchannel := colorChannel_lt_three p
    obtain ⟨hxi, hyj, hcp⟩ := (frameIndex_inj hx (by omega) hc (by omega)).mp hq
    obtain rfl := (channel_bit_eq_iff (by omega) hb).mp ⟨hcp.symm, hoff.symm⟩
    obtain ⟨rfl, rfl⟩ : dx = x % 2 ∧ dy = y % 2 := by omega
    obtain ⟨rfl, rfl⟩ : i = x / 2 ∧ j = y / 2 := by omega
    exact ⟨hp, hcode⟩
  · rintro ⟨hp, hcode⟩
    obtain ⟨hchannel, hoff⟩ := (channel_bit_eq_iff (by omega) hb).mpr (rfl : 8 * c + b = 8 * c + b)
    refine ⟨_, hp, y / 2, by omega, x / 2, by omega, x % 2, by omega, y % 2, by omega, ?_, hoff.symm, hcode⟩
    rw [Nat.div_add_mod, Nat.div_add_mod, hchannel]

theorem frameBit_scalarAccumulate (hplanes : planes ≤ 24) (hlen : frame.length = 16 * n * m) (hx : x < 2 * n)
    (hy : y < 2 * m) (hc : c < 4) (hb : b < 8) :
    frameBit (scalarAccumulate codes planes n m frame) (frameIndex (2 * n) x y c) b =
      (frameBit frame (frameIndex (2 * n) x y c) b || (newByte codes planes n m x y c).getLsbD b) := by
  have hq : frameIndex (2 * n) x y c < frame.length := hlen ▸ frameIndex_lt hx hy hc
  have hwrites := scalarAccumulate_writesBits codes planes n m
  have hset := exists_cornerBit_iff (codes := codes) hplanes hx hy hc hb
  cases hbit : (newByte codes planes n m x y c).getLsbD b
  case true => rw [hwrites.written hq (hset.mpr hbit), Bool.or_true]
  case false => rw [hwrites.kept hq fun h => by simp [hset.mp h] at hbit, Bool.or_false]

theorem frameBit_scalarClear (hlen : frame.length = 16 * n * m) (hx : x < 2 * n) (hy : y < 2 * m)
    (hc : c < 3) : frameBit (scalarClear n m frame) (frameIndex (2 * n) x y c) b = false :=
  (scalarClear_writesBits n m).written (hlen ▸ frameIndex_lt hx hy (by omega)) ⟨y, hy, x, hx, c, hc, rfl⟩

theorem frameBit_scalarAlpha (hlen : frame.length = 16 * n * m) (hx : x < 2 * n) (hy : y < 2 * m) :
    frameBit (scalarAlpha n m frame) (frameIndex (2 * n) x y 3) b = (0xFF#8).getLsbD b :=
  (scalarAlpha_writesBits n m).written (hlen ▸ frameIndex_lt hx hy (by decide)) ⟨y, hy, x, hx, rfl⟩

theorem frameBit_scalarAlpha_color (hlen : frame.length = 16 * n * m) (hx : x < 2 * n) (hy : y < 2 * m)
    (hc : c < 3) :
    frameBit (scalarAlpha n m frame) (frameIndex (2 * n) x y c) b = frameBit frame (frameIndex (2 * n) x y c) b := by
  refine (scalarAlpha_writesBits n m).kept (hlen ▸ frameIndex_lt hx hy (by omega)) ?_
  rintro ⟨y', -, x', hx', hq⟩
  obtain ⟨-, -, h3⟩ := (frameIndex_inj hx hx' (by omega) (by decide)).mp hq
  omega

/-! ### The tiles -/

/-- A work item writes the closed form's bits to its pixel, and outside the image nothing (R162). -/
theorem workItem_writesBits (clr : Bool) (codes : List Nibble) (planes : Nat) {before : List Byte}
    (hlen : before.length = 16 * n * m) (x y : Nat) :
    WritesBits (workItem clr codes planes n m before x y)
      (fun q _ => x < 2 * n ∧ y < 2 * m ∧ ∃ c < 4, q = frameIndex (2 * n) x y c)
      (frameBit (packInto clr codes planes n m before)) := by
  by_cases hin : x < 2 * n ∧ y < 2 * m
  case pos =>
    have bytes := WritesBits.loop (v := frameBit (packInto clr codes planes n m before)) 4 fun c hc =>
      .of_set (frameIndex (2 * n) x y c) fun b =>
        congrArg (BitVec.getLsbD · b) (packInto_getD_frameIndex hlen hin.1 hin.2 hc clr)
    unfold workItem
    simp only [if_pos hin]
    exact bytes.congr fun q b => by simp only [hin, true_and]
  case neg =>
    unfold workItem
    simp only [if_neg hin]
    exact .nothing fun q b h => hin ⟨h.1, h.2.1⟩

/-- The tiles cover the image, so the data-parallel form gives the closed form (R161, R162). -/
theorem packTiled_eq_packInto (clr : Bool) (codes : List Nibble) (planes : Nat) (hlen : frame.length = 16 * n * m) :
    packTiled clr codes planes n m frame = packInto clr codes planes n m frame := by
  have tiles := WritesBits.loop ((2 * m + 15) / 16) fun ty _ => .loop ((2 * n + 15) / 16) fun tx _ =>
    .loop 16 fun ly _ => .loop 16 fun lx _ =>
      workItem_writesBits clr codes planes hlen (16 * tx + lx) (16 * ty + ly)
  refine frame_ext ((tiles.length frame).trans (packInto_length ..).symm) fun q b hq _ => ?_
  replace hq : q < frame.length := (tiles.length frame) ▸ hq
  obtain ⟨x, y, c, hx, hy, hc, rfl⟩ := exists_frameIndex (hlen ▸ hq)
  refine tiles.written hq ⟨y / 16, by omega, x / 16, by omega, y % 16, by omega, x % 16, by omega, ?_⟩
  rw [Nat.div_add_mod, Nat.div_add_mod]
  exact ⟨hx, hy, c, hc, rfl⟩

/-! ### The sequential form as a whole -/

theorem scalarClear_length (n m : Nat) (frame : List Byte) : (scalarClear n m frame).length = frame.length :=
  (scalarClear_writesBits n m).length frame

theorem packScalar_length (clr : Bool) (codes : List Nibble) (planes n m : Nat) (frame : List Byte) :
    (packScalar clr codes planes n m frame).length = frame.length := by
  rw [packScalar, (scalarAlpha_writesBits n m).length, (scalarAccumulate_writesBits codes planes n m).length]
  cases clr
  case true => exact scalarClear_length n m frame
  case false => rfl

/-- Clearing, the planes and alpha in sequence give the closed form (R161). -/
theorem packScalar_eq_packInto (clr : Bool) (hplanes : planes ≤ 24) (hlen : frame.length = 16 * n * m) :
    packScalar clr codes planes n m frame = packInto clr codes planes n m frame := by
  refine frame_ext ((packScalar_length ..).trans (packInto_length ..).symm) fun q b hq hb => ?_
  obtain ⟨x, y, c, hx, hy, hc, rfl⟩ := exists_frameIndex (by rwa [packScalar_length, hlen] at hq)
  have hstart : (if clr then scalarClear n m frame else frame).length = 16 * n * m := by
    cases clr
    case true => exact (scalarClear_length n m frame).trans hlen
    case false => exact hlen
  have haccumulated := ((scalarAccumulate_writesBits codes planes n m).length _).trans hstart
  obtain rfl | hcolor : c = 3 ∨ c < 3 := by omega
  · rw [packScalar, frameBit_scalarAlpha haccumulated hx hy, frameBit_packInto_alpha hlen hx hy]
  · rw [packScalar, frameBit_scalarAlpha_color haccumulated hx hy hcolor,
      frameBit_scalarAccumulate hplanes hstart hx hy hc hb, frameBit_packInto hlen hx hy hcolor]
    cases clr
    case true => simp [frameBit_scalarClear hlen hx hy hcolor]
    case false => simp

end Orders

end Sys2Proof.Machine
end

section
/-! PROOFS. The command PACK and reading a code back (spec 42_packer.md R163, R165). The idea: an accepted PACK stores
the closed form, so a byte of the slot is known by its pixel and channel (`State.byteAt_afterPack_pixelAddr`), and the
codes are those of the payload's phases (`codeAt_eq_phaseCode`). The obligations of the packer follow here. -/

namespace Sys2Proof.Machine

/-! ### Reading a code back -/

/-- The four corners carry the four bits of a code (R153), so a code is known by what its corners carry. -/
theorem nibble_ext_corners {code code' : Nibble}
    (h : ∀ dx < 2, ∀ dy < 2, code.getLsbD (kmap dx dy) = code'.getLsbD (kmap dx dy)) : code = code' := by
  refine BitVec.eq_of_getLsbD_eq fun k hk => ?_
  have hcorner := h (k / 2) (by omega) (1 - k % 2) (by omega)
  rwa [show kmap (k / 2) (1 - k % 2) = k by unfold kmap; omega] at hcorner

theorem ofBool_corners_getLsbD (corner : Nat → Nat → Bool) {dx dy : Nat} (hdx : dx < 2) (hdy : dy < 2) :
    (BitVec.ofBool (corner 1 0) ++ BitVec.ofBool (corner 1 1) ++ BitVec.ofBool (corner 0 0) ++
      BitVec.ofBool (corner 0 1)).getLsbD (kmap dx dy) = corner dx dy := by
  interval_cases dx <;> interval_cases dy <;> simp only [kmap, BitVec.getLsbD_append, BitVec.getLsbD_ofBool] <;> simp

/-- Each corner is read into the code bit it carries (R163). -/
theorem readBackCode_getLsbD (n p i j : Nat) (frame : List Byte) {dx dy : Nat} (hdx : dx < 2) (hdy : dy < 2) :
    (readBackCode n p i j frame).getLsbD (kmap dx dy) =
      frameBit frame (frameIndex (2 * n) (2 * i + dx) (2 * j + dy) (colorChannel p)) (bitOffset p) :=
  ofBool_corners_getLsbD (fun dx dy =>
    frameBit frame (frameIndex (2 * n) (2 * i + dx) (2 * j + dy) (colorChannel p)) (bitOffset p)) hdx hdy

theorem frameBit_packInto_corner (clr : Bool) (codes : List Nibble) {planes n m p i j dx dy : Nat} {frame : List Byte}
    (hplanes : planes ≤ 24) (hlen : frame.length = 16 * n * m) (hp : p < planes) (hi : i < n) (hj : j < m)
    (hdx : dx < 2) (hdy : dy < 2) :
    frameBit (packInto clr codes planes n m frame)
        (frameIndex (2 * n) (2 * i + dx) (2 * j + dy) (colorChannel p)) (bitOffset p) =
      ((!clr && frameBit frame (frameIndex (2 * n) (2 * i + dx) (2 * j + dy) (colorChannel p)) (bitOffset p)) ||
        (codeAt codes n m p i j).getLsbD (kmap dx dy)) := by
  have hplane : 8 * colorChannel p + bitOffset p = p :=
    ((channel_bit_eq_iff (by omega) (bitOffset_lt_eight p)).mp ⟨rfl, rfl⟩).symm
  rw [frameBit_packInto hlen (by omega) (by omega) (colorChannel_lt_three p),
    newByte_getLsbD (bitOffset_lt_eight p), hplane, decide_eq_true hp, Bool.true_and,
    show (2 * i + dx) / 2 = i by omega, show (2 * j + dy) / 2 = j by omega, show (2 * i + dx) % 2 = dx by omega,
    show (2 * j + dy) % 2 = dy by omega]

/-! ### The codes of a framed PACK -/

/-- Each phase of the stream has the code of its level (R152). -/
theorem codesOf_eq_map {lut : Vector Word 17} {table : Vector Nibble 16} {phase : List Word} {codes : List Nibble}
    (h : codesOf lut table phase = some codes) :
    codes = phase.map fun v => table.toList.getD (quantize lut v).toNat 0 := by
  induction phase generalizing codes with
  | nil => simpa [codesOf, eq_comm] using h
  | cons v vs ih =>
    have hlevel : (quantize lut v).toNat < 16 := Nat.lt_succ_of_le (quantize_toNat_le lut v)
    obtain ⟨rest, hrest⟩ := codesOf_some lut table vs
    simp only [codesOf, codeLookup_of_lt table hlevel, hrest, Option.some.injEq] at h
    rw [← h, List.map_cons, ← ih hrest, List.getD_eq_getElem _ _ (by simpa using hlevel), Vector.getElem_toList]

/-- A plane's phases lie in the payload (R67). -/
theorem phaseIndex_lt {n m p i j planes : Nat} (hp : p < planes) (hi : i < n) (hj : j < m) :
    phaseIndex n m p i j < planes * n * m := by
  have hplane : (p + 1) * (n * m) ≤ planes * (n * m) := Nat.mul_le_mul_right _ hp
  have hrow : (j + 1) * n ≤ m * n := Nat.mul_le_mul_right _ hj
  unfold phaseIndex
  linarith

/-- `code_p(i, j)` of a framed PACK, as R67 and R152 spell it. -/
theorem codeAt_eq_phaseCode {s : State} {phase : List Word} {codes : List Nibble} {planes p i j : Nat}
    (hcodes : codesOf s.lut s.code phase = some codes) (hframed : phase.length = planes * s.n.toNat * s.m.toNat)
    (hp : p < planes) (hi : i < s.n.toNat) (hj : j < s.m.toNat) :
    codeAt codes s.n.toNat s.m.toNat p i j = s.phaseCode phase p i j := by
  have hplace : phaseIndex s.n.toNat s.m.toNat p i j < phase.length := hframed ▸ phaseIndex_lt hp hi hj
  rw [codeAt, codesOf_eq_map hcodes, List.getD_eq_getElem _ _ (by simpa using hplace), List.getElem_map,
    ← List.getD_eq_getElem phase 0 hplace, State.phaseCode, phaseIndex, Nat.mul_assoc]

/-! ### What an accepted PACK stores -/

/-- Byte `F[x, y, c]` of the slot after a PACK (R160). -/
theorem State.byteAt_afterPack_pixelAddr {s : State} (h : Memory.wf s.fs = true) (clr : Bool) (codes : List Nibble)
    (planes k : Nat) {x y c : Nat} (hx : x < s.width) (hy : y < s.height) (hc : c < 4) :
    (s.afterPack clr codes planes k).byteAt (s.pixelAddr k x y c) =
      packedByte clr codes planes s.n.toNat s.m.toNat x y c (s.byteAt (s.pixelAddr k x y c)) := by
  have haddr : s.pixelAddr k x y c = s.slotAddr k + frameIndex s.width x y c := Nat.add_assoc ..
  have hin : frameIndex s.width x y c < s.frameBytes := frameIndex_lt hx hy hc
  rw [State.byteAt_afterPack h, haddr, if_pos ⟨Nat.le_add_right .., Nat.add_lt_add_left hin _⟩,
    Nat.add_sub_cancel_left, frameIndex_column hx hc, frameIndex_row hx hc, frameIndex_mod_four hc]

/-! ### The failures -/

section Failures

variable {s : State} {clr : Bool} {planes : BitVec 8} {dst : Word} {phase : List Word}

/-- PACK without geometry or a table (R165). -/
theorem exec_pack_of_not_ready (hframed : phase.length = packWords planes s.n.toNat s.m.toNat)
    (h : s.n = 0 ∨ s.lutLoaded = false ∨ s.codeLoaded = false) :
    exec (.pack clr planes dst phase) s = s.fail .errNotCfg := by
  have hwf : (Instr.pack clr planes dst phase).wf s.n.toNat s.m.toNat = true := beq_iff_eq.mpr hframed
  simp only [exec, execPack, hwf, framed_true, if_pos h]

/-- PACK with geometry and tables, but too many planes or no such slot: the planes are checked first (R165, R252). -/
theorem exec_pack_of_ready (hframed : phase.length = packWords planes s.n.toNat s.m.toNat) (hn : s.n ≠ 0)
    (hlut : s.lutLoaded = true) (hcode : s.codeLoaded = true)
    (h : 24 < planes.toNat ∨ s.capacity.toNat ≤ dst.toNat) :
    exec (.pack clr planes dst phase) s = s.fail (if 24 < planes.toNat then .errPlanes else .errRange) := by
  have hwf : (Instr.pack clr planes dst phase).wf s.n.toNat s.m.toNat = true := beq_iff_eq.mpr hframed
  have hready : ¬ (s.n = 0 ∨ s.lutLoaded = false ∨ s.codeLoaded = false) := by simpa [hlut, hcode] using hn
  simp only [exec, execPack, hwf, framed_true, if_neg hready]
  split
  case isTrue => rfl
  case isFalse hfew => rw [if_pos (h.resolve_left hfew)]

end Failures

end Sys2Proof.Machine

open Sys2Proof Sys2Proof.Machine

/-- Settles O27: a plane is `8·channel + bit` in the one way of `channel_bit_eq_iff`. -/
theorem planeAndCornerMaps : Obligations.PlaneAndCornerMaps := by
  unfold Obligations.PlaneAndCornerMaps
  refine ⟨fun p hp => ⟨colorChannel_lt_three p, bitOffset_lt_eight p, ?_⟩, fun c b hc hb => ?_, by decide⟩
  · exact ((channel_bit_eq_iff hp (bitOffset_lt_eight p)).mp ⟨rfl, rfl⟩).symm
  · exact (channel_bit_eq_iff (by omega) hb).mpr rfl

/-- Settles O28: the pack is accepted, and a byte of the slot is R160's (`State.byteAt_afterPack_pixelAddr`), whose bits
are those of `packedByte_getLsbD` with the plane's code in `newByte_getLsbD`. -/
theorem packWritesTheBitPlanes : Obligations.PackWritesTheBitPlanes := by
  unfold Obligations.PackWritesTheBitPlanes
  intro s clr planes dst phase hwf hframed hn hlut hcode hfew hslot
  obtain ⟨codes, hcodes⟩ := codesOf_some s.lut s.code phase
  have accepted : PackAccepted s planes dst phase := ⟨hframed, hn, hlut, hcode, hfew, hslot⟩
  refine ⟨_, accepted.exec_pack hcodes clr, rfl, fun a ha => ?_, fun x y hx hy => ⟨?_, fun c b hc hb => ?_⟩⟩
  · rw [State.byteAt_afterPack hwf, if_neg ha]
  · exact State.byteAt_afterPack_pixelAddr hwf clr codes _ _ hx hy (by decide)
  · rw [State.byteAt_afterPack_pixelAddr hwf clr codes _ _ hx hy (by omega), packedByte_getLsbD hc,
      newByte_getLsbD hb]
    by_cases hp : 8 * c + b < planes.toNat
    case pos =>
      rw [codeAt_eq_phaseCode hcodes hframed hp (Nat.div_lt_of_lt_mul hx) (Nat.div_lt_of_lt_mul hy)]
      rfl
    case neg => simp only [decide_eq_false hp, Bool.false_and]

/-- Settles O29: the checks of `execPack` in their order. -/
theorem packFailsInOrder : Obligations.PackFailsInOrder := by
  unfold Obligations.PackFailsInOrder
  intro s clr planes dst phase hframed
  refine ⟨fun h => ?_, fun hn hlut hcode hmany => ?_, fun hn hlut hcode hfew hslot => ?_⟩
  · exact exec_pack_of_not_ready hframed h
  · rw [exec_pack_of_ready hframed hn hlut hcode (.inl hmany), if_pos hmany]
    rfl
  · rw [exec_pack_of_ready hframed hn hlut hcode (.inr hslot), if_neg (Nat.not_lt.mpr hfew)]
    rfl

/-- Settles O30: `packScalar_eq_packInto`, bit by bit. -/
theorem scalarPackEqualsClosedForm : Obligations.ScalarPackEqualsClosedForm :=
  fun clr _ _ _ _ _ => packScalar_eq_packInto clr

/-- Settles O31: both forms give the closed form. -/
theorem tiledPackEqualsScalarPack : Obligations.TiledPackEqualsScalarPack := by
  unfold Obligations.TiledPackEqualsScalarPack
  intro clr codes planes n m frame hplanes hlen
  rw [packTiled_eq_packInto clr codes planes hlen, packScalar_eq_packInto clr hplanes hlen]

/-- Settles O32: corner by corner, the bit read is the one the closed form put there (`frameBit_packInto_corner`). -/
theorem packedBlockReadsBackTheCode : Obligations.PackedBlockReadsBackTheCode := by
  unfold Obligations.PackedBlockReadsBackTheCode
  intro codes planes n m p i j frame hplanes hlen hp hi hj
  refine ⟨nibble_ext_corners fun dx hdx dy hdy => ?_, nibble_ext_corners fun dx hdx dy hdy => ?_⟩
  · rw [readBackCode_getLsbD n p i j _ hdx hdy, frameBit_packInto_corner true codes hplanes hlen hp hi hj hdx hdy]
    rfl
  · rw [readBackCode_getLsbD n p i j _ hdx hdy, frameBit_packInto_corner false codes hplanes hlen hp hi hj hdx hdy,
      BitVec.getLsbD_or, readBackCode_getLsbD n p i j _ hdx hdy, Bool.or_comm]
    rfl

end

section
/-! PROOFS. The bytes that a frame stream carries (spec 20_memory.md R64 to R66, 43_framestore.md R186): one element of
each converted list, by its place. -/

namespace Sys2Proof.Machine

/-- Byte `i` of a list of words; beyond the last word both sides read 0 (R64). -/
theorem bytesOfWords_getD (ws : List Word) (i : Nat) : (bytesOfWords ws).getD i 0 = streamByte ws i := by
  induction ws generalizing i with
  | nil => simp [bytesOfWords, streamByte]
  | cons w ws ih =>
    match i with
    | 0 | 1 | 2 | 3 => rfl
    | i + 4 =>
      calc (bytesOfWords (w :: ws)).getD (i + 4) 0 = (bytesOfWords ws).getD i 0 := rfl
        _ = streamByte ws i := ih i
        _ = streamByte (w :: ws) (i + 4) := by simp [streamByte]

/-- Word `t` carries the bytes `4t` to `4t + 3`, the lowest in bits 7:0 (R64). -/
theorem wordsOfBytes_getD {bs : List Byte} {t : Nat} (h : 4 * t + 3 < bs.length) :
    (wordsOfBytes bs).getD t 0 =
      bs.getD (4 * t + 3) 0 ++ bs.getD (4 * t + 2) 0 ++ bs.getD (4 * t + 1) 0 ++ bs.getD (4 * t) 0 := by
  induction t generalizing bs with
  | zero =>
    match bs, h with
    | b0 :: b1 :: b2 :: b3 :: bs, _ => rfl
  | succ t ih =>
    match bs, h with
    | b0 :: b1 :: b2 :: b3 :: bs, h =>
      simp only [List.length_cons] at h
      exact ih (bs := bs) (by omega)

/-- Pixel `q` of the zero-alpha form: the three source bytes, then 0x00 (R66, R186). -/
theorem zeroAlpha_getD {bs : List Byte} {q : Nat} (h : 3 * q + 2 < bs.length) :
    (∀ c, c < 3 → (zeroAlpha bs).getD (4 * q + c) 0 = bs.getD (3 * q + c) 0) ∧
      (zeroAlpha bs).getD (4 * q + 3) 0 = 0x00#8 := by
  induction q generalizing bs with
  | zero =>
    match bs, h with
    | r :: g :: b :: bs, _ =>
      refine ⟨fun c hc => ?_, rfl⟩
      match c, hc with
      | 0, _ | 1, _ | 2, _ => rfl
  | succ q ih =>
    match bs, h with
    | r :: g :: b :: bs, h =>
      simp only [List.length_cons] at h
      obtain ⟨hcolour, halpha⟩ := ih (bs := bs) (by omega)
      refine ⟨fun c hc => ?_, halpha⟩
      rw [show 4 * (q + 1) + c = 4 * q + c + 4 by omega, show 3 * (q + 1) + c = 3 * q + c + 3 by omega]
      exact hcolour c hc

end Sys2Proof.Machine
end

section
/-! PROOFS. The frame store commands (spec 43_framestore.md R181 to R189). The idea: INSERT and SET_AT leave one state,
`State.afterStore`, whose bytes are known frame by frame inside the slots written (`State.byteAt_afterStore`) and
unchanged outside them (`State.byteAt_afterStore_outside`); each command has one equation per answer. -/

namespace Sys2Proof.Machine

/-! ### A run of frames in the store -/

/-- A frame is four bytes for each pixel (R27). -/
theorem State.frameBytes_eq_pixels (s : State) : s.frameBytes = 4 * (s.width * s.height) := by
  unfold State.frameBytes State.width State.height
  ring

/-- A frame is four bytes for each word of its RGBA stream (R27, R65). -/
theorem State.frameBytes_eq_words (s : State) : s.frameBytes = 4 * (4 * s.n.toNat * s.m.toNat) := by
  unfold State.frameBytes
  ring

/-- Slots are adjacent (R61). -/
theorem State.slotAddr_add (s : State) (k f : Nat) : s.slotAddr (k + f) = s.slotAddr k + f * s.frameBytes :=
  Nat.add_mul ..

/-- Byte `r` of frame `f` is a byte of a run of `count` frames. -/
theorem frameOffset_lt {f r count size : Nat} (hf : f < count) (hr : r < size) : f * size + r < count * size :=
  calc f * size + r < (f + 1) * size := by rw [Nat.add_one_mul]; exact Nat.add_lt_add_left hr _
    _ ≤ count * size := Nat.mul_le_mul_right _ hf

/-- Byte `q` of a slot. -/
theorem State.slotBytes_getD (s : State) (k : Nat) {q : Nat} (hq : q < s.frameBytes) :
    (s.slotBytes k).getD q 0 = s.byteAt (s.slotAddr k + q) := by
  have hq' : q < (s.slotBytes k).length := (s.slotBytes_length k).symm ▸ hq
  rw [List.getD_eq_getElem _ _ hq', State.slotBytes_getElem]

/-- The state a command leaves that stores the bytes `bs` from the start of slot `k` on and answers OK. -/
def State.afterStore (s : State) (k : Nat) (bs : List Byte) : State := (s.writeSlots k bs).respond .ok []

/-- Storing changes the store and the response stream alone. -/
theorem State.afterStore_eq (s : State) (k : Nat) (bs : List Byte) :
    s.afterStore k bs = { s with fs := (s.afterStore k bs).fs, rsp := s.rsp ++ [0x00000000#32] } := rfl

@[simp] theorem State.afterStore_slotAddr (s : State) (k : Nat) (bs : List Byte) (j : Nat) :
    (s.afterStore k bs).slotAddr j = s.slotAddr j := rfl

section Stored

variable {s : State} {k count : Nat} {bs : List Byte}

/-- Byte `r` of frame `f` of the run stored stands at byte `r` of slot `k + f` (R61, R185). -/
theorem State.byteAt_afterStore (h : Memory.wf s.fs = true) (hlen : bs.length = count * s.frameBytes) {f r : Nat}
    (hf : f < count) (hr : r < s.frameBytes) :
    (s.afterStore k bs).byteAt (s.slotAddr (k + f) + r) = bs.getD (f * s.frameBytes + r) 0 := by
  have hin := frameOffset_lt hf hr
  rw [State.afterStore, State.respond_byteAt, State.byteAt_writeSlots h, State.slotAddr_add, Nat.add_assoc,
    if_pos ⟨Nat.le_add_right .., by omega⟩, Nat.add_sub_cancel_left]

theorem State.byteAt_afterStore_outside (h : Memory.wf s.fs = true) (hlen : bs.length = count * s.frameBytes) {a : Nat}
    (ha : ¬ (s.slotAddr k ≤ a ∧ a < s.slotAddr (k + count))) : (s.afterStore k bs).byteAt a = s.byteAt a := by
  rw [State.slotAddr_add, ← hlen] at ha
  rw [State.afterStore, State.respond_byteAt, State.byteAt_writeSlots h, if_neg ha]

/-- A slot reads as the frame that was stored in it. -/
theorem State.slotBytes_afterStore (h : Memory.wf s.fs = true) (hlen : bs.length = s.frameBytes) :
    (s.afterStore k bs).slotBytes k = bs := by
  refine List.ext_getElem ((State.slotBytes_length ..).trans hlen.symm) fun q _ hq => ?_
  rw [State.slotBytes_getElem, ← List.getD_eq_getElem bs 0 hq]
  simpa using State.byteAt_afterStore (k := k) (f := 0) h (hlen.trans (Nat.one_mul _).symm) one_pos (hlen ▸ hq)

end Stored

/-! ### The commands, one equation per answer -/

section Commands

variable {s : State}

theorem exec_setGeometry_of_running (n m : Word) (h : s.loopRun = true) :
    exec (.setGeometry n m) s = s.fail .errBusy := if_pos h

theorem exec_setGeometry_of_stopped (n m : Word) (h : s.loopRun = false) :
    exec (.setGeometry n m) s =
      if n = 0 ∨ m = 0 ∨ s.params.nMax < n.toNat ∨ s.params.mMax < m.toNat then s.fail .errParam
      else (State.rebuild { s with n := n.setWidth 16, m := m.setWidth 16 }).answer [] :=
  if_neg (Bool.eq_false_iff.mp h)

theorem exec_resize_of_running (cap : Word) (h : s.loopRun = true) : exec (.resize cap) s = s.fail .errBusy := if_pos h

theorem exec_resize_of_stopped (cap : Word) (h : s.loopRun = false) :
    exec (.resize cap) s =
      if cap = 0 ∨ s.params.capMax < cap.toNat then s.fail .errParam
      else (State.rebuild { s with capacity := cap }).answer [] :=
  if_neg (Bool.eq_false_iff.mp h)

/-- INSERT of a framed record: its checks in their order, then the run of frames (R185). -/
theorem exec_insert {layout : BitVec 2} {offset count : Word} {frames : List Word}
    (hframed : frames.length = insertWords layout count s.n.toNat s.m.toNat) :
    exec (.insert layout offset count frames) s =
      if 2 ≤ layout.toNat then s.fail .errParam
      else if s.capacity.toNat < offset.toNat + count.toNat then s.fail .errRange
      else .next (s.afterStore offset.toNat (toRGBA layout (bytesOfWords frames))) :=
  if_pos (beq_iff_eq.mpr hframed)

theorem exec_insert_of_fits {layout : BitVec 2} {offset count : Word} {frames : List Word}
    (hframed : frames.length = insertWords layout count s.n.toNat s.m.toNat) (hlayout : layout.toNat < 2)
    (hfits : offset.toNat + count.toNat ≤ s.capacity.toNat) :
    exec (.insert layout offset count frames) s =
      .next (s.afterStore offset.toNat (toRGBA layout (bytesOfWords frames))) := by
  rw [exec_insert hframed, if_neg (Nat.not_le.mpr hlayout), if_neg (Nat.not_lt.mpr hfits)]

/-- SET_AT of a framed record: the check of its slot, then the frame (R188). -/
theorem exec_setAt {index : Word} {frame : List Word} (hframed : frame.length = frameWords s.n.toNat s.m.toNat) :
    exec (.setAt index frame) s =
      if s.capacity.toNat ≤ index.toNat then s.fail .errRange
      else .next (s.afterStore index.toNat (bytesOfWords frame)) :=
  if_pos (beq_iff_eq.mpr hframed)

/-- One RGBA frame has the payload of SET_AT (R93). -/
theorem insertWords_one_frame (n m : Nat) : insertWords 1#2 1#32 n m = frameWords n m := Nat.one_mul _

/-- SET_AT is INSERT of one RGBA frame, since `index + 1 > CAPACITY` is `index ≥ CAPACITY` (R188). -/
theorem exec_setAt_eq_insert {index : Word} {frame : List Word}
    (hframed : frame.length = frameWords s.n.toNat s.m.toNat) :
    exec (.setAt index frame) s = exec (.insert 1#2 index 1#32 frame) s := by
  have hlayout : ¬ 2 ≤ (1#2).toNat := by decide
  rw [exec_setAt hframed, exec_insert (hframed.trans (insertWords_one_frame ..).symm), if_neg hlayout]
  exact if_congr Nat.lt_succ_iff.symm rfl rfl

theorem exec_get_of_above {index : Word} (h : s.capacity.toNat ≤ index.toNat) :
    exec (.get index) s = s.fail .errRange := if_pos h

theorem exec_get_of_lt {index : Word} (h : index.toNat < s.capacity.toNat) :
    exec (.get index) s = s.answer (wordsOfBytes (s.slotBytes index.toNat)) := if_neg (Nat.not_le.mpr h)

end Commands

end Sys2Proof.Machine

open Sys2Proof Sys2Proof.Machine

/-- Settles O34: the packet is the encoder's (O1), the checks come in R181's order, and a legal dimension keeps its
value, which is not 0, in its 16-bit register. -/
theorem setGeometryRebuilds : Obligations.SetGeometryRebuilds := by
  unfold Obligations.SetGeometryRebuilds
  refine ⟨fun a b n m ws => decodeOfEncode a b (.setGeometry n m) ws rfl, fun s n m hparams => ?_⟩
  obtain ⟨⟨-, hnMax⟩, ⟨-, hmMax⟩, -⟩ := hparams
  refine ⟨exec_setGeometry_of_running n m, fun hstopped hbad => ?_, fun hstopped hn hnle hm hmle => ?_⟩
  · rw [exec_setGeometry_of_stopped n m hstopped, if_pos hbad]
    rfl
  · have hlegal : ¬ (n = 0 ∨ m = 0 ∨ s.params.nMax < n.toNat ∨ s.params.mMax < m.toNat) := by
      simp only [not_or, Nat.not_lt]
      exact ⟨(ne_zero_iff_one_le_toNat n).mpr hn, (ne_zero_iff_one_le_toNat m).mpr hm, hnle, hmle⟩
    have hN := toNat_setWidth_dimension hnle hnMax
    have hset : n.setWidth 16 ≠ 0 := (ne_zero_iff_one_le_toNat _).mpr (hN.symm ▸ hn)
    rw [exec_setGeometry_of_stopped n m hstopped, if_neg hlegal]
    refine ⟨_, rfl, rfl, hN, toNat_setWidth_dimension hmle hmMax, ?_, fun _ => rfl⟩
    rw [State.statusView_getLsbD, State.geomSet_eq]
    exact decide_eq_true hset

/-- Settles O35: the packet is the encoder's (O1), and the checks come in R183's order. -/
theorem resizeRebuilds : Obligations.ResizeRebuilds := by
  unfold Obligations.ResizeRebuilds
  refine ⟨fun a b cap ws => decodeOfEncode a b (.resize cap) ws rfl, fun s cap => ?_⟩
  refine ⟨exec_resize_of_running cap, fun hstopped hbad => ?_, fun hstopped hpos hle => ?_⟩
  · rw [exec_resize_of_stopped cap hstopped, if_pos hbad]
    rfl
  · have hlegal : ¬ (cap = 0 ∨ s.params.capMax < cap.toNat) := by
      simp only [not_or, Nat.not_lt]
      exact ⟨(ne_zero_iff_one_le_toNat cap).mpr hpos, hle⟩
    rw [exec_resize_of_stopped cap hstopped, if_neg hlegal]
    exact ⟨_, rfl, rfl, fun _ => rfl⟩

/-- Settles O36: the checks of `exec_insert` in their order. -/
theorem insertFailsInOrder : Obligations.InsertFailsInOrder := by
  unfold Obligations.InsertFailsInOrder
  intro s layout offset count frames hwf
  have hframed : frames.length = insertWords layout count s.n.toNat s.m.toNat := beq_iff_eq.mp hwf
  refine ⟨fun hreserved => ?_, fun hlegal habove => ?_⟩
  · rw [exec_insert hframed, if_pos hreserved]
    rfl
  · rw [exec_insert hframed, if_neg (Nat.not_le.mpr hlegal), if_pos habove]
    rfl

/-- Settles O37: layout 1 stores the payload's bytes as they are, `count` frames of them. -/
theorem insertStoresRgbaFrames : Obligations.InsertStoresRgbaFrames := by
  unfold Obligations.InsertStoresRgbaFrames
  intro s offset count frames hwf hframed hfits
  have hlen : (bytesOfWords frames).length = count.toNat * s.frameBytes :=
    toRGBA_insert_length (layout := 1#2) hframed (by decide)
  refine ⟨_, exec_insert_of_fits hframed (by decide) hfits, State.afterStore_eq .., fun f r hf hr => ?_,
    fun a ha => ?_⟩
  · exact (State.byteAt_afterStore hwf hlen hf hr).trans (bytesOfWords_getD frames _)
  · exact State.byteAt_afterStore_outside hwf hlen ha

/-- Settles O38: pixel `q` of frame `f` is pixel `f·W·H + q` of the run, and layout 0 stores each pixel as
`zeroAlpha_getD` says. -/
theorem insertStoresRgbFrames : Obligations.InsertStoresRgbFrames := by
  unfold Obligations.InsertStoresRgbFrames
  intro s offset count frames hwf hframed hfits
  have hlen : (zeroAlpha (bytesOfWords frames)).length = count.toNat * s.frameBytes :=
    toRGBA_insert_length (layout := 0#2) hframed (by decide)
  have hpixels := s.frameBytes_eq_pixels
  refine ⟨_, exec_insert_of_fits hframed (by decide) hfits, State.afterStore_eq .., fun f q hf hq => ?_,
    fun a ha => ?_⟩
  · have hpixel : 3 * (f * (s.width * s.height) + q) + 2 < (bytesOfWords frames).length := by
      have hsource : (bytesOfWords frames).length = 3 * (count.toNat * (s.width * s.height)) := by
        rw [bytesOfWords_length, hframed, State.width, State.height]
        ring
      have := frameOffset_lt hf hq
      omega
    have hstored (c : Nat) (hc : c < 4) :
        (s.afterStore offset.toNat (zeroAlpha (bytesOfWords frames))).byteAt
            (s.slotAddr (offset.toNat + f) + 4 * q + c) =
          (zeroAlpha (bytesOfWords frames)).getD (4 * (f * (s.width * s.height) + q) + c) 0 := by
      rw [Nat.add_assoc, State.byteAt_afterStore hwf hlen hf (by omega), hpixels]
      congr 1
      ring
    obtain ⟨hcolour, halpha⟩ := zeroAlpha_getD hpixel
    refine ⟨fun c hc => ?_, (hstored 3 (by decide)).trans halpha⟩
    refine (hstored c (by omega)).trans ((hcolour c hc).trans ?_)
    rw [bytesOfWords_getD]
    congr 1
    ring
  · exact State.byteAt_afterStore_outside hwf hlen ha

/-- Settles O39: the packet is the encoder's (O1), and what is stored is O37 for one frame. -/
theorem setAtStoresTheFrame : Obligations.SetAtStoresTheFrame := by
  unfold Obligations.SetAtStoresTheFrame
  intro s index frame hframed
  refine ⟨fun ws => decodeOfEncode _ _ (.setAt index frame) ws (beq_iff_eq.mpr hframed), exec_setAt_eq_insert hframed,
    fun habove => ?_, fun hwf hslot => ?_⟩
  · rw [exec_setAt hframed, if_pos habove]
    rfl
  · obtain ⟨t, hexec, hframe, hbytes, houtside⟩ :=
      insertStoresRgbaFrames s index 1#32 frame hwf (hframed.trans (insertWords_one_frame ..).symm) hslot
    refine ⟨t, (exec_setAt_eq_insert hframed).trans hexec, hframe, fun r hr => ?_, fun a ha => houtside a ?_⟩
    · simpa using hbytes 0 r one_pos hr
    · rwa [State.slotAddr_add, BitVec.toNat_one (by decide), Nat.one_mul]

/-- Settles O40: the packet is the encoder's (O1), and word `t` of the answer packs the four bytes of pixel `t`. -/
theorem getAnswersTheSlot : Obligations.GetAnswersTheSlot := by
  unfold Obligations.GetAnswersTheSlot
  refine ⟨fun a b index ws => decodeOfEncode a b (.get index) ws rfl, fun s index => ?_⟩
  refine ⟨exec_get_of_above, fun hslot => ⟨_, exec_get_of_lt hslot, s.slotWords_length _, fun t ht => ?_⟩⟩
  have hin : 4 * t + 3 < s.frameBytes := by
    rw [s.frameBytes_eq_words]
    omega
  rw [wordsOfBytes_getD (by rwa [State.slotBytes_length]), s.slotBytes_getD _ hin,
    s.slotBytes_getD _ (by omega : 4 * t + 2 < _), s.slotBytes_getD _ (by omega : 4 * t + 1 < _),
    s.slotBytes_getD _ (by omega : 4 * t < _)]
  rfl

/-- Settles O41: the slot reads as the frame's bytes, and packing them into words undoes the unpacking. -/
theorem getAnswersWhatSetAtStored : Obligations.GetAnswersWhatSetAtStored := by
  unfold Obligations.GetAnswersWhatSetAtStored
  intro s index frame hwf hframed hslot
  have hlen : (bytesOfWords frame).length = s.frameBytes := by
    rw [bytesOfWords_length, hframed, s.frameBytes_eq_words]
  have hset : exec (.setAt index frame) s = .next (s.afterStore index.toNat (bytesOfWords frame)) := by
    rw [exec_setAt hframed, if_neg (Nat.not_le.mpr hslot)]
  refine ⟨_, _, hset, exec_get_of_lt hslot, ?_⟩
  rw [State.slotBytes_afterStore hwf hlen, wordsOfBytes_bytesOfWords]
  rfl

end

section
/-! PROOFS. The sequencer's commands and one tick (spec 44_sequencer.md R201 to R215). The idea: each command has one
equation per answer, and a presenting tick is known from three tests of the state it meets: whether the start test
fires, whether step 4 moves the counters, and whether step 5 ends the sequence. -/

namespace Sys2Proof.Machine

/-! ### The commands, one equation per answer -/

section Commands

variable {s : State}

/-- SET_ORDER of a framed record: the check of its length, then the entries (R201). -/
theorem exec_setOrder {len : Word} {entries : List Word} (hframed : entries.length = len.toNat) :
    exec (.setOrder len entries) s =
      if s.capacity.toNat < len.toNat then s.fail .errRange else (s.writeOrder entries).answer [] :=
  if_pos (beq_iff_eq.mpr hframed)

theorem exec_startLoop_of_not_configured (h : s.capacity = 0 ∨ s.n = 0) :
    exec .startLoop s = s.fail .errNotCfg := if_pos h

theorem exec_startLoop_of_configured (hcap : s.capacity ≠ 0) (hn : s.n ≠ 0) :
    exec .startLoop s = State.answer { s with loopRun := true } [] := if_neg (not_or.mpr ⟨hcap, hn⟩)

/-- The state a START_SEQ leaves that is in range. -/
def State.afterStartSeq (s : State) (n : Word) : State :=
  State.respond { s with fis := n, fr := n, sa := true, ffh := true } .ok []

theorem exec_startSeq_of_above {n : Word} (h : s.capacity.toNat < n.toNat) :
    exec (.startSeq n) s = s.fail .errRange := if_pos h

theorem exec_startSeq_of_le {n : Word} (h : n.toNat ≤ s.capacity.toNat) :
    exec (.startSeq n) s = .next (s.afterStartSeq n) := if_neg (Nat.not_lt.mpr h)

theorem State.R42.afterStartSeq (h : s.R42) {n : Word} (fits : n.toNat ≤ s.capacity.toNat) :
    (s.afterStartSeq n).R42 := r42_keptByEvents.respond .ok [] (h.startSeq fits)

end Commands

/-! ### When a tick presents -/

theorem step_of_tick {s : State} {es : List Event} (he : s.events = .tick :: es) :
    step s = displayTick { s with events := es } := by
  simp only [step, performEvent, he]

theorem displayTick_of_stopped {s : State} (h : s.loopRun = false) : displayTick s = .next s.clearOutputs := if_pos h

theorem displayTick_of_running {s : State} (hrun : s.loopRun = true) (hmode : s.mode.toNat ≤ 1)
    (hcap : 1 ≤ s.capacity.toNat) : displayTick s = .next (presentingTick s) := by
  have hcap0 : s.capacity ≠ 0 := (ne_zero_iff_one_le_toNat _).mpr hcap
  rw [displayTick, if_neg (by simp [hrun]), if_neg (by omega), if_neg hcap0]

/-! ### What a presenting tick leaves -/

/-- A presenting tick writes the registers R210 names and the outputs, and nothing else. -/
theorem presentingTick_frame (s : State) :
    presentingTick s =
      { s with mode := (presentingTick s).mode, ci := (presentingTick s).ci, fr := (presentingTick s).fr,
               bi := (presentingTick s).bi, sa := (presentingTick s).sa, ffh := (presentingTick s).ffh,
               trig := (presentingTick s).trig, dispSlot := (presentingTick s).dispSlot,
               present := (presentingTick s).present, playPulse := (presentingTick s).playPulse,
               stopPulse := (presentingTick s).stopPulse } := by
  refine (State.mk.injEq ..).mpr ?_
  simp [presentingTick]

@[simp] theorem presentingTick_orderAt (s : State) (k : Nat) : (presentingTick s).orderAt k = s.orderAt k := by
  simp [State.orderAt]

@[simp] theorem presentingTick_playPulse (s : State) : (presentingTick s).playPulse = s.startFires s.ffh := by
  simp [presentingTick]

@[simp] theorem presentingTick_stopPulse (s : State) : (presentingTick s).stopPulse = s.ends := by
  simp only [presentingTick_eq, tickPresent_stopPulse, tickEnd_stopPulse, ends_iff_beforeEnd, Bool.decide_eq_true]

theorem tickStart_ci_toNat (held : Bool) (s : State) :
    (tickStart held s).ci.toNat = if s.startFires held then 0 else s.ci.toNat := by
  rw [tickStart_ci, apply_ite BitVec.toNat]
  rfl

/-- The bytes of a slot in ascending address order (R14, R61). -/
theorem State.slotBytes_eq_map (s : State) (k : Nat) :
    s.slotBytes k = (List.range s.frameBytes).map fun r => s.byteAt (s.slotAddr k + r) :=
  List.ext_getElem (by simp) fun r _ _ => by simp [State.slotBytes_getElem]

theorem presentingTick_present (s : State) :
    (presentingTick s).present =
      some ((List.range s.frameBytes).map fun r => s.byteAt (s.slotAddr (presentingTick s).dispSlot.toNat + r)) := by
  rw [← State.slotBytes_eq_map]
  simp [presentingTick, State.slotBytes, State.slotAddr, State.frameBytes]

/-! ### The three tests, by the kind of tick -/

section Kinds

variable {s : State}

/-- On a tick that moves the counters, a sequence ends when no frame is left before it (R214, R215). -/
theorem State.ends_of_advances (h : s.advances = true) : s.ends = (s.sa && decide (s.fr.toInt = 0)) := by
  obtain ⟨-, hfr⟩ := (State.advances_iff s).mp h
  rw [State.ends, presentingTick_fr_toInt, if_pos h]
  congr 2
  exact propext (by omega)

theorem State.ends_of_not_advances (h : s.advances = false) : s.ends = (s.sa && decide (s.fr.toInt < 0)) := by
  rw [State.ends, presentingTick_fr_toInt, if_neg (by simp [h])]

theorem State.startFires_of_held (hffh : s.ffh = true) : s.startFires s.ffh = false := by
  simp [State.startFires, hffh]

theorem State.advances_of_held (hffh : s.ffh = true) : s.advances = false := by
  simp [State.advances, hffh]

theorem State.startFires_of_idle (hsa : s.sa = false) : s.startFires s.ffh = false := by
  simp [State.startFires, hsa]

variable (h : s.R42)
include h

/-- A hold tick ends no sequence: FR still equals FIS (R42(f)). -/
theorem State.R42.ends_of_held (hffh : s.ffh = true) : s.ends = false := by
  obtain ⟨-, hfr⟩ := h.hold hffh
  rw [State.ends_of_not_advances (State.advances_of_held hffh), decide_eq_false (by omega), Bool.and_false]

/-- Without a sequence FR is -1 (R42(g)), so CI rests. -/
theorem State.R42.advances_of_idle (hsa : s.sa = false) : s.advances = false := by
  obtain ⟨-, -, hfr⟩ := h.idle hsa
  simp [State.advances, hfr]

/-- Without a sequence the trigger is down (R42(d)). -/
theorem State.R42.trig_of_idle (hsa : s.sa = false) : s.trig = false := by
  obtain ⟨-, hactive⟩ := h.trigger
  exact Bool.eq_false_iff.mpr fun ht => absurd (hactive ht) (Bool.eq_false_iff.mp hsa)

theorem State.R42.mode_of_trig (ht : s.trig = true) : s.mode = modePlaying := h.trigger.1.mpr ht

/-- Without a sequence the trigger is down, BI is -1 and the mode is Idle (R42(d), R42(e), R42(g)). -/
theorem State.R42.rest_of_idle (hsa : s.sa = false) :
    s.trig = false ∧ s.bi.toInt = -1 ∧ s.mode = modeIdle := by
  obtain ⟨hdown, -⟩ := h.bufferIndex
  obtain ⟨hmode, -⟩ := h.idle hsa
  have htrig := h.trig_of_idle hsa
  exact ⟨htrig, hdown htrig, hmode⟩

theorem State.R42.mode_toNat_le : s.mode.toNat ≤ 1 := by
  obtain ⟨hm | hm, -⟩ := h.mode <;> rw [hm] <;> decide

end Kinds

/-! ### Ticks alone -/

/-- The state after `k` presenting ticks. -/
def State.ticked (s : State) : Nat → State
  | 0 => s
  | k + 1 => presentingTick (s.ticked k)

theorem State.ticked_succ (s : State) (k : Nat) : s.ticked (k + 1) = presentingTick (s.ticked k) := rfl

theorem State.ticked_add (s : State) (k j : Nat) : s.ticked (k + j) = (s.ticked k).ticked j := by
  induction j with
  | zero => rfl
  | succ j ih => exact congrArg presentingTick ih

@[simp] theorem State.ticked_loopRun (s : State) (k : Nat) : (s.ticked k).loopRun = s.loopRun := by
  induction k with
  | zero => rfl
  | succ k ih => exact (presentingTick_loopRun _).trans ih

@[simp] theorem State.ticked_capacity (s : State) (k : Nat) : (s.ticked k).capacity = s.capacity := by
  induction k with
  | zero => rfl
  | succ k ih => exact (presentingTick_capacity _).trans ih

@[simp] theorem State.ticked_orderAt (s : State) (k p : Nat) : (s.ticked k).orderAt p = s.orderAt p := by
  induction k with
  | zero => rfl
  | succ k ih => exact (presentingTick_orderAt _ p).trans ih

@[simp] theorem State.ticked_fis (s : State) (k : Nat) : (s.ticked k).fis = s.fis := by
  induction k with
  | zero => rfl
  | succ k ih => exact (presentingTick_fis _).trans ih

section Ticks

variable {s : State}

theorem State.R42.ticked (h : s.R42) (k : Nat) : (s.ticked k).R42 := by
  induction k with
  | zero => exact h
  | succ k ih => exact ih.presentingTick

/-- With the loop running the tick agent alone never stops (R42(b), R42(h)). -/
theorem State.R42.ticksFrom_eq (h : s.R42) (hrun : s.loopRun = true) (k : Nat) : ticksFrom k s = some (s.ticked k) := by
  induction k with
  | zero => rfl
  | succ k ih =>
    have hk := h.ticked k
    have hrunk := (s.ticked_loopRun k).trans hrun
    obtain ⟨hcap, -⟩ := hk.loop hrunk
    simp only [ticksFrom, ih, displayTick_of_running hrunk hk.mode_toNat_le hcap, State.ticked_succ]

end Ticks

end Sys2Proof.Machine

open Sys2Proof Sys2Proof.Machine

/-- Settles O42: the packet is the encoder's (O1), and an entry after the write is `State.orderAt_writeOrder`. -/
theorem setOrderWritesThePrefix : Obligations.SetOrderWritesThePrefix := by
  unfold Obligations.SetOrderWritesThePrefix
  intro s len entries hframed
  refine ⟨fun a b ws => decodeOfEncode a b (.setOrder len entries) ws (beq_iff_eq.mpr hframed), fun habove => ?_,
    fun hwf hfits => ⟨(s.writeOrder entries).respond .ok [], ?_, rfl, fun k => ?_⟩⟩
  · rw [exec_setOrder hframed, if_pos habove]
    rfl
  · rw [exec_setOrder hframed, if_neg (Nat.not_lt.mpr hfits)]
    rfl
  · rw [← hframed]
    exact State.orderAt_writeOrder hwf entries k

/-- Settles O43: the packet is the encoder's (O1), and the check is R204's. -/
theorem startLoopRuns : Obligations.StartLoopRuns :=
  ⟨fun n m ws => decodeOfEncode n m .startLoop ws rfl,
    fun _ => ⟨exec_startLoop_of_not_configured, exec_startLoop_of_configured⟩⟩

/-- Settles O44: the packet is the encoder's (O1), and STOP_LOOP has no check. -/
theorem stopLoopFreezes : Obligations.StopLoopFreezes :=
  ⟨fun n m ws => decodeOfEncode n m .stopLoop ws rfl, fun _ => rfl⟩

/-- Settles O45: the packet is the encoder's (O1), and the check is R206's. -/
theorem startSeqArmsTheSequence : Obligations.StartSeqArmsTheSequence :=
  ⟨fun a b n ws => decodeOfEncode a b (.startSeq n) ws rfl,
    fun _ _ => ⟨exec_startSeq_of_above, exec_startSeq_of_le⟩⟩

/-- Settles O46: the tick only clears the outputs of the event before. -/
theorem stoppedTickDoesNothing : Obligations.StoppedTickDoesNothing := by
  unfold Obligations.StoppedTickDoesNothing
  intro s es hstopped he
  exact (step_of_tick he).trans (displayTick_of_stopped hstopped)

/-- Settles O47: the tick presents, and each register is a law of `presentingTick`; the variables under the quantifier
are the three tests, the trigger and the position after step 1. -/
theorem tickPerformsTheFiveSteps : Obligations.TickPerformsTheFiveSteps := by
  unfold Obligations.TickPerformsTheFiveSteps
  intro s es hrun hmode hcap he
  let r : State := { s with events := es }
  refine ⟨presentingTick r, ?_, presentingTick_frame r, r.startFires r.ffh, r.ends, r.advances,
    r.trig || r.startFires r.ffh, (tickStart r.ffh r).ci.toNat, rfl, tickStart_ci_toNat r.ffh r, rfl, rfl,
    presentingTick_fr_toInt r, Bool.and_comm .., presentingTick_dispSlot_toNat r, presentingTick_ci_toNat r, ?_,
    presentingTick_mode r, presentingTick_sa r, presentingTick_ffh r, presentingTick_trig r,
    presentingTick_playPulse r, presentingTick_stopPulse r, presentingTick_present r⟩
  · rw [step_of_tick he]
    exact displayTick_of_running hrun hmode hcap
  · rw [presentingTick_bi_toInt, presentingTick_trig]
    cases r.ends <;> cases r.trig || r.startFires r.ffh <;> rfl

end

section
/-! PROOFS. A sequence tick by tick (spec 44_sequencer.md R207, R218). The idea: START_SEQ leaves a held state. After its
hold tick, `SequenceAt` holds of each state that the ticks reach up to the end of the sequence (`State.R42.sequenceAt`),
and from it everything that the next tick does is known. -/

namespace Sys2Proof.Machine

/-! ### The hold tick -/

section Hold

variable {s : State} (h : s.R42) (hffh : s.ffh = true)
include h hffh

/-- A hold tick shows the slot at the old CI and gives no pulse; CI, TRIG and MODE keep their values (R211, R214). -/
theorem presentingTick_of_held :
    (presentingTick s).dispSlot.toNat = (s.orderAt (s.ci.toNat % s.capacity.toNat)).toNat % s.capacity.toNat ∧
      (presentingTick s).trig = s.trig ∧ (presentingTick s).mode = s.mode ∧ (presentingTick s).ci = s.ci ∧
      (presentingTick s).playPulse = false ∧ (presentingTick s).stopPulse = false ∧
      (presentingTick s).bi.toInt = if s.trig then min (s.bi.toInt + 1) (2 ^ 31 - 1) else -1 := by
  have hfires := State.startFires_of_held hffh
  have hadv := State.advances_of_held hffh
  have hends := h.ends_of_held hffh
  have hci : (tickStart s.ffh s).ci.toNat = s.ci.toNat := by simp [hfires]
  have htrig : (presentingTick s).trig = s.trig := by simp [hfires, hends]
  refine ⟨?_, htrig, ?_, BitVec.eq_of_toNat_eq ?_, ?_, ?_, ?_⟩
  · rw [presentingTick_dispSlot_toNat, hci]
  · simp [hends, hfires]
  · simp [presentingTick_ci_toNat, hadv, hfires]
  · rw [presentingTick_playPulse, hfires]
  · rw [presentingTick_stopPulse, hends]
  · rw [presentingTick_bi_toInt, htrig]

end Hold

/-! ### The ticks of a sequence -/

/-- From `t` the next tick shows frame `q` of the sequence of `FIS` frames that `s` holds; `q = FIS` is the tick after
the last frame (R218). -/
structure SequenceAt (s : State) (q : Nat) (t : State) : Prop where
  r42 : t.R42
  capacity : t.capacity = s.capacity
  order : ∀ k, t.orderAt k = s.orderAt k
  fis : t.fis = s.fis
  active : t.sa = true
  notHeld : t.ffh = false
  fr : t.fr.toInt = (s.fis.toNat : Int) - q
  position : (tickStart t.ffh t).ci.toNat = min q (s.capacity.toNat - 1)

/-- A hold tick leads to the first frame, whatever went before (R207(c), R214). -/
theorem sequenceAt_zero {s : State} (h : s.R42) (hffh : s.ffh = true) : SequenceAt s 0 (presentingTick s) := by
  obtain ⟨hsa, hfrfis⟩ := h.hold hffh
  have hfr : (presentingTick s).fr.toInt = (s.fis.toNat : Int) := by
    rw [presentingTick_fr_toInt, State.advances_of_held hffh, ← hfrfis]
    rfl
  have hactive : (presentingTick s).sa = true := by simp [hsa, h.ends_of_held hffh]
  have hfires : (presentingTick s).startFires (presentingTick s).ffh = true := by
    rw [State.startFires_iff, presentingTick_fis]
    exact ⟨hactive, hfr, presentingTick_ffh s⟩
  exact {
    r42 := h.presentingTick
    capacity := presentingTick_capacity s
    order := presentingTick_orderAt s
    fis := presentingTick_fis s
    active := hactive
    notHeld := presentingTick_ffh s
    fr := by simpa using hfr
    position := by rw [tickStart_ci_toNat, if_pos hfires, Nat.zero_min] }

namespace SequenceAt

variable {s t : State} {q : Nat} (h : SequenceAt s q t)
include h

theorem startFires : t.startFires t.ffh = decide (q = 0) := by
  have hfr := h.fr
  rw [Bool.eq_iff_iff, State.startFires_iff, h.fis, decide_eq_true_eq]
  constructor
  · rintro ⟨-, hfrfis, -⟩
    omega
  · rintro rfl
    exact ⟨h.active, by simpa using hfr, h.notHeld⟩

/-- A position up to the last slot is shown without wrapping (R212). -/
theorem dispSlot (hcap : 1 ≤ s.capacity.toNat) :
    (presentingTick t).dispSlot.toNat =
      (s.orderAt (min q (s.capacity.toNat - 1))).toNat % s.capacity.toNat := by
  have hlt : min q (s.capacity.toNat - 1) < s.capacity.toNat := by omega
  rw [presentingTick_dispSlot_toNat, h.position, h.capacity, h.order, Nat.mod_eq_of_lt hlt]

theorem playPulse : (presentingTick t).playPulse = decide (q = 0) := by
  rw [presentingTick_playPulse, h.startFires]

section UpToTheEnd

variable (hq : q ≤ s.fis.toNat)
include hq

theorem advances : t.advances = true := by
  have hfr := h.fr
  exact (State.advances_iff t).mpr ⟨h.notHeld, by omega⟩

theorem fr_toInt : (presentingTick t).fr.toInt = (s.fis.toNat : Int) - q - 1 := by
  rw [presentingTick_fr_toInt, if_pos (h.advances hq), h.fr]

theorem ci_toNat : (presentingTick t).ci.toNat = min (q + 1) (s.capacity.toNat - 1) := by
  rw [presentingTick_ci_toNat, if_pos (h.advances hq), h.position, h.capacity]
  omega

/-- The tick after the last frame ends the sequence (R215). -/
theorem ends : t.ends = decide (q = s.fis.toNat) := by
  rw [State.ends_of_advances (h.advances hq), h.active, h.fr, Bool.true_and, decide_eq_decide]
  omega

end UpToTheEnd

/-- A tick before the end leaves the sequence active, its trigger up once it has begun (R211, R215). -/
theorem tick_of_lt (hlt : q < s.fis.toNat) :
    (presentingTick t).sa = true ∧ (presentingTick t).trig = (t.trig || decide (q = 0)) ∧
      (presentingTick t).stopPulse = false := by
  have hends : t.ends = false := (h.ends hlt.le).trans (decide_eq_false hlt.ne)
  refine ⟨?_, ?_, by rw [presentingTick_stopPulse, hends]⟩
  · rw [presentingTick_sa, hends, h.active, Bool.not_false, Bool.and_true]
  · rw [presentingTick_trig, hends, h.startFires, Bool.not_false, Bool.and_true]

/-- The ending tick gives the stop pulse and is back in Idle (R215). -/
theorem tick_of_eq (heq : q = s.fis.toNat) :
    (presentingTick t).sa = false ∧ (presentingTick t).trig = false ∧ (presentingTick t).bi.toInt = -1 ∧
      (presentingTick t).mode = modeIdle ∧ (presentingTick t).stopPulse = true := by
  have hends : t.ends = true := (h.ends heq.le).trans (decide_eq_true heq)
  have hsa : (presentingTick t).sa = false := by rw [presentingTick_sa, hends, Bool.not_true, Bool.and_false]
  obtain ⟨htrig, hbi, hmode⟩ := h.r42.presentingTick.rest_of_idle hsa
  exact ⟨hsa, htrig, hbi, hmode, by rw [presentingTick_stopPulse, hends]⟩

/-- A tick before the end takes the sequence to its next frame (R214). -/
theorem succ (hlt : q < s.fis.toNat) : SequenceAt s (q + 1) (presentingTick t) := by
  obtain ⟨hactive, -⟩ := h.tick_of_lt hlt
  have hfr := h.fr_toInt hlt.le
  have hfis : (presentingTick t).fis = s.fis := (presentingTick_fis t).trans h.fis
  have hnot : ¬ (presentingTick t).startFires (presentingTick t).ffh = true := by
    rw [State.startFires_iff, hfis]
    omega
  exact {
    r42 := h.r42.presentingTick
    capacity := (presentingTick_capacity t).trans h.capacity
    order := fun k => (presentingTick_orderAt t k).trans (h.order k)
    fis := hfis
    active := hactive
    notHeld := presentingTick_ffh t
    fr := by omega
    position := by rw [tickStart_ci_toNat, if_neg hnot, h.ci_toNat hlt.le] }

end SequenceAt

/-- A held state reaches its frames one tick after the other (R218). -/
theorem State.R42.sequenceAt {s : State} (h : s.R42) (hffh : s.ffh = true) {q : Nat} (hq : q ≤ s.fis.toNat) :
    SequenceAt s q (s.ticked (q + 1)) := by
  induction q with
  | zero => exact sequenceAt_zero h hffh
  | succ q ih => exact (ih (Nat.le_of_succ_le hq)).succ hq

/-- The tick after the hold tick is a start tick: it shows ORDER[0] and gives the play pulse (R207, R211). -/
theorem State.R42.start_tick {s : State} (h : s.R42) (hffh : s.ffh = true) (hcap : 1 ≤ s.capacity.toNat) :
    (s.ticked 2).dispSlot.toNat = (s.orderAt 0).toNat % s.capacity.toNat ∧ (s.ticked 2).playPulse = true ∧
      (s.ticked 2).fr.toInt = (s.fis.toNat : Int) - 1 := by
  have hat := h.sequenceAt hffh (Nat.zero_le _)
  have hdisp := hat.dispSlot hcap
  have hfr := hat.fr_toInt (Nat.zero_le _)
  rw [Nat.zero_min] at hdisp
  rw [Nat.cast_zero, Int.sub_zero] at hfr
  exact ⟨hdisp, hat.playPulse, hfr⟩

/-- With the trigger down at the start, it goes up with the first frame and BI numbers the frames (R213, R218). -/
theorem State.R42.sequence_counts {s : State} (h : s.R42) (hffh : s.ffh = true) (hdown : s.trig = false) {q : Nat}
    (hq : q ≤ s.fis.toNat) :
    (s.ticked (q + 1)).trig = decide (0 < q) ∧ (s.ticked (q + 1)).bi.toInt = (q : Int) - 1 := by
  induction q with
  | zero =>
    obtain ⟨-, htrig, -, -, -, -, hbi⟩ := presentingTick_of_held h hffh
    rw [hdown] at htrig hbi
    exact ⟨htrig, hbi⟩
  | succ q ih =>
    obtain ⟨htrig, hbi⟩ := ih (Nat.le_of_succ_le hq)
    have hat := h.sequenceAt hffh (Nat.le_of_succ_le hq)
    have hup : (s.ticked (q + 1 + 1)).trig = true := by
      obtain ⟨-, hnext, -⟩ := hat.tick_of_lt hq
      rw [State.ticked_succ, hnext, htrig]
      simpa using q.eq_zero_or_pos.symm
    obtain ⟨-, -, -, hmax⟩ := h.params
    obtain ⟨-, -, hfis⟩ := h.counters
    refine ⟨by simpa using hup, ?_⟩
    rw [State.ticked_succ] at hup ⊢
    rw [presentingTick_bi_toInt, if_pos hup, hbi]
    omega

/-! ### Ticks without a sequence -/

/-- Without a sequence a tick shows the slot at CI, starts none, keeps CI and gives no pulse (R214, R219). -/
theorem presentingTick_of_idle {s : State} (h : s.R42) (hsa : s.sa = false) :
    (presentingTick s).dispSlot.toNat = (s.orderAt (s.ci.toNat % s.capacity.toNat)).toNat % s.capacity.toNat ∧
      (presentingTick s).sa = false ∧ (presentingTick s).ci = s.ci ∧ (presentingTick s).playPulse = false ∧
      (presentingTick s).stopPulse = false := by
  have hfires := State.startFires_of_idle hsa
  refine ⟨?_, by simp [hsa], BitVec.eq_of_toNat_eq ?_, ?_, by simp [State.ends, hsa]⟩
  · simp [presentingTick_dispSlot_toNat, hfires]
  · simp [presentingTick_ci_toNat, h.advances_of_idle hsa, hfires]
  · rw [presentingTick_playPulse, hfires]

theorem State.R42.ticked_of_idle {s : State} (h : s.R42) (hsa : s.sa = false) (j : Nat) :
    (s.ticked j).sa = false ∧ (s.ticked j).ci = s.ci := by
  induction j with
  | zero => exact ⟨hsa, rfl⟩
  | succ j ih =>
    obtain ⟨hsaj, hcij⟩ := ih
    obtain ⟨-, hsa', hci', -⟩ := presentingTick_of_idle (h.ticked j) hsaj
    exact ⟨hsa', hci'.trans hcij⟩

/-- Every tick of a state without a sequence shows the slot at its CI (R218). -/
theorem State.R42.tick_of_idle {s : State} (h : s.R42) (hsa : s.sa = false) (j : Nat) :
    (s.ticked (j + 1)).dispSlot.toNat = (s.orderAt (s.ci.toNat % s.capacity.toNat)).toNat % s.capacity.toNat ∧
      (s.ticked (j + 1)).trig = false ∧ (s.ticked (j + 1)).bi.toInt = -1 ∧
      (s.ticked (j + 1)).mode = modeIdle ∧ (s.ticked (j + 1)).playPulse = false ∧
      (s.ticked (j + 1)).stopPulse = false := by
  obtain ⟨hsaj, hcij⟩ := h.ticked_of_idle hsa j
  obtain ⟨hdisp, hsa', -, hplay, hstop⟩ := presentingTick_of_idle (h.ticked j) hsaj
  obtain ⟨htrig, hbi, hmode⟩ := (h.ticked (j + 1)).rest_of_idle hsa'
  rw [hcij, State.ticked_capacity, State.ticked_orderAt] at hdisp
  exact ⟨hdisp, htrig, hbi, hmode, hplay, hstop⟩

end Sys2Proof.Machine

open Sys2Proof Sys2Proof.Machine

/-- Settles O48: the hold tick, then `State.R42.sequenceAt` and `State.R42.sequence_counts` for the frames `q < n` and
for the ending tick `q = n`, then ticks without a sequence (`State.R42.tick_of_idle`). -/
theorem sequenceShowsTheOrder : Obligations.SequenceShowsTheOrder := by
  unfold Obligations.SequenceShowsTheOrder
  intro s n h hrun hsa hpos hfits
  have harmed : (s.afterStartSeq n).R42 := h.afterStartSeq hfits
  have hdown : (s.afterStartSeq n).trig = false := h.trig_of_idle hsa
  have hticks := harmed.ticksFrom_eq hrun
  have hcap : 1 ≤ (s.afterStartSeq n).capacity.toNat := hpos.trans hfits
  have hlast : SequenceAt (s.afterStartSeq n) n.toNat ((s.afterStartSeq n).ticked (n.toNat + 1)) :=
    harmed.sequenceAt rfl le_rfl
  obtain ⟨hendSa, hendTrig, hendBi, hendMode, hendStop⟩ := hlast.tick_of_eq rfl
  have hendCi : ((s.afterStartSeq n).ticked (n.toNat + 2)).ci.toNat = min (n.toNat + 1) (s.capacity.toNat - 1) :=
    hlast.ci_toNat le_rfl
  refine ⟨_, exec_startSeq_of_le hfits, ⟨_, hticks 1, ?holdTick⟩, fun q hq => ⟨_, hticks (q + 2), ?frameTick⟩,
    ⟨_, hticks (n.toNat + 2), ?graceTick⟩, fun j => ⟨_, hticks (n.toNat + 3 + j), ?idleTick⟩⟩
  case holdTick =>
    obtain ⟨hdisp, htrig, hmode, -, hplay, hstop, hbi⟩ := presentingTick_of_held harmed rfl
    obtain ⟨hidle, -⟩ := h.idle hsa
    rw [hdown] at htrig hbi
    exact ⟨hdisp, htrig, hbi, hmode.trans hidle, hplay, hstop⟩
  case frameTick =>
    have hat : SequenceAt (s.afterStartSeq n) q ((s.afterStartSeq n).ticked (q + 1)) := harmed.sequenceAt rfl hq.le
    obtain ⟨-, -, hstop⟩ := hat.tick_of_lt hq
    obtain ⟨htrig, hbi⟩ := harmed.sequence_counts rfl hdown (q := q + 1) hq
    have hup := htrig.trans (decide_eq_true q.succ_pos)
    have hdisp := hat.dispSlot hcap
    rw [show min q ((s.afterStartSeq n).capacity.toNat - 1) = q from
      Nat.min_eq_left (Nat.le_sub_one_of_lt (hq.trans_le hfits))] at hdisp
    exact ⟨hdisp, hup, by simpa using hbi, (harmed.ticked _).mode_of_trig hup, hat.playPulse, hstop⟩
  case graceTick =>
    exact ⟨hlast.dispSlot hcap, hendTrig, hendBi, hendMode, hendSa, hendCi,
      hlast.playPulse.trans (decide_eq_false (Nat.ne_of_gt hpos)), hendStop⟩
  case idleTick =>
    have hrest := (harmed.ticked (n.toNat + 2)).tick_of_idle hendSa j
    have hlt : min (n.toNat + 1) (s.capacity.toNat - 1) < s.capacity.toNat := by omega
    rw [hendCi, State.ticked_capacity, State.ticked_orderAt, ← State.ticked_add,
      show n.toNat + 2 + (j + 1) = n.toNat + 3 + j by omega] at hrest
    rwa [show (s.afterStartSeq n).capacity = s.capacity from rfl, Nat.mod_eq_of_lt hlt] at hrest

/-- Settles O49: the hold tick keeps what R207(c) says, and the start tick after it is `State.R42.start_tick`; with
`n = 0` it is the ending tick too. -/
theorem restartHoldsThenStartsAgain : Obligations.RestartHoldsThenStartsAgain := by
  unfold Obligations.RestartHoldsThenStartsAgain
  intro s n h hrun hsa hfits
  have harmed : (s.afterStartSeq n).R42 := h.afterStartSeq hfits
  have hticks := harmed.ticksFrom_eq hrun
  obtain ⟨hcap, -⟩ := h.loop hrun
  have hat := sequenceAt_zero harmed rfl
  obtain ⟨hdisp, htrig, hmode, hci, hplay, hstop, hbi⟩ := presentingTick_of_held harmed rfl
  obtain ⟨hdisp', hplay', hfr'⟩ := harmed.start_tick rfl hcap
  refine ⟨_, _, _, exec_startSeq_of_le hfits, hticks 1, hdisp, htrig, hmode, hci, hplay, hstop, hbi, hticks 2,
    hdisp', hplay', State.ticked_fis .., hfr', fun hpos => ?_, fun hzero => ?_⟩
  · obtain ⟨hsa', htrig', hstop'⟩ := hat.tick_of_lt hpos
    have hup : ((s.afterStartSeq n).ticked 2).trig = true := htrig'.trans (Bool.or_true _)
    exact ⟨hup, (harmed.ticked 2).mode_of_trig hup, hsa', hstop', (presentingTick_bi_toInt _).trans (if_pos hup)⟩
  · obtain ⟨hsa', htrig', hbi', hmode', hstop'⟩ := hat.tick_of_eq (congrArg BitVec.toNat hzero).symm
    exact ⟨htrig', hmode', hsa', hstop', hbi'⟩

/-- Settles O50: a sequence of no frames has its start tick and its ending tick in one. -/
theorem emptySequencePulsesOnce : Obligations.EmptySequencePulsesOnce := by
  unfold Obligations.EmptySequencePulsesOnce
  intro s h hrun hsa
  have hfits : (0#32).toNat ≤ s.capacity.toNat := Nat.zero_le _
  have harmed : (s.afterStartSeq 0#32).R42 := h.afterStartSeq hfits
  have hdown : (s.afterStartSeq 0#32).trig = false := h.trig_of_idle hsa
  have hticks := harmed.ticksFrom_eq hrun
  obtain ⟨hcap, -⟩ := h.loop hrun
  obtain ⟨-, htrig, -, -, hplay, hstop, hbi⟩ := presentingTick_of_held harmed rfl
  rw [hdown] at htrig hbi
  obtain ⟨hdisp', hplay', hfr'⟩ := harmed.start_tick rfl hcap
  obtain ⟨hsa', htrig', hbi', hmode', hstop'⟩ := (sequenceAt_zero harmed rfl).tick_of_eq rfl
  exact ⟨_, _, _, exec_startSeq_of_le hfits, hticks 1, htrig, hbi, hplay, hstop, hticks 2, hdisp', hplay', hstop',
    htrig', hbi', hfr', hmode', hsa'⟩

end

section
/-! PROOFS. The system commands (spec 45_system.md R240 to R242). The idea: R242's unmapped ranges leave the four row
groups of R43's table (`not_unmappedRegister_iff`), each number of a group is a row, and the model's register map answers
every row's value and no unmapped number. -/

namespace Sys2Proof.Machine

variable {s : State} {reg v : Word}

/-! ### The register map, one equation per row group -/

theorem State.readRegister_lut (k : Fin 17) (h : reg.toNat = 0x10 + k.val) :
    s.readRegister reg = some s.lut[k.val] := by
  have hk := k.isLt
  simp only [State.readRegister, h]
  rw [dif_pos (by omega)]
  simp only [Nat.add_sub_cancel_left]

theorem State.readRegister_code (level : Fin 16) (h : reg.toNat = 0x40 + level.val) :
    s.readRegister reg = some (s.code[level.val].setWidth 32) := by
  have hl := level.isLt
  simp only [State.readRegister, h]
  rw [dif_neg (by omega), dif_pos (by omega)]
  simp only [Nat.add_sub_cancel_left]

theorem State.readRegister_order {k : Nat} (hk : k < s.params.capMax) (h : reg.toNat = 0x80000000 + k) :
    s.readRegister reg = some (s.orderAt k) := by
  simp only [State.readRegister, h]
  rw [dif_neg (by omega), dif_neg (by omega), if_pos (by omega), Nat.add_sub_cancel_left]

/-! ### The rows of R43 and the gaps of R242 -/

/-- The register map answers the value of every row (R43); CAP_MAX keeps the numbers of ORDER inside 32 bits (R9). -/
theorem RegisterValue.readRegister_eq (hp : s.params.ok) (h : RegisterValue s reg v) : s.readRegister reg = some v := by
  cases h with
  | lut k => exact State.readRegister_lut k (Nat.mod_eq_of_lt (by omega))
  | code level => exact State.readRegister_code level (Nat.mod_eq_of_lt (by omega))
  | order k hk =>
    obtain ⟨-, -, -, hcap⟩ := hp
    exact State.readRegister_order hk (Nat.mod_eq_of_lt (by omega))
  | _ => rfl

/-- No row group of the register map reaches into a gap of R242: only the map's last arm is left. -/
theorem UnmappedRegister.readRegister_eq (h : UnmappedRegister s reg) : s.readRegister reg = none := by
  unfold UnmappedRegister at h
  unfold State.readRegister
  rw [dif_neg (by omega), dif_neg (by omega), if_neg (by omega)]
  split
  case h_12 => rfl
  all_goals omega

/-- What R242's gaps leave: the single registers, the breakpoints, the codes and the order entries. -/
theorem not_unmappedRegister_iff :
    ¬ UnmappedRegister s reg ↔
      reg.toNat ≤ 0xA ∨ (0x10 ≤ reg.toNat ∧ reg.toNat ≤ 0x20) ∨ (0x40 ≤ reg.toNat ∧ reg.toNat ≤ 0x4F) ∨
        (0x80000000 ≤ reg.toNat ∧ reg.toNat < 0x80000000 + s.params.capMax) := by
  unfold UnmappedRegister
  omega

/-- The first eleven numbers are the single registers (R43). -/
theorem exists_registerValue_of_le {r : Nat} (h : r ≤ 0xA) : ∃ v, RegisterValue s (BitVec.ofNat 32 r) v := by
  interval_cases r
  exacts [⟨_, .status⟩, ⟨_, .geomN⟩, ⟨_, .geomM⟩, ⟨_, .capacity⟩, ⟨_, .mode⟩, ⟨_, .framesRemaining⟩,
    ⟨_, .framesInSeq⟩, ⟨_, .currentIndex⟩, ⟨_, .bufferIndex⟩, ⟨_, .seqFlags⟩, ⟨_, .dispSlot⟩]

/-- Every number outside R242's gaps is a row of R43's table. -/
theorem exists_registerValue (h : ¬ UnmappedRegister s reg) : ∃ v, RegisterValue s reg v := by
  suffices hrow : ∃ v, RegisterValue s (BitVec.ofNat 32 reg.toNat) v by simpa using hrow
  obtain hlow | ⟨hge, hle⟩ | ⟨hge, hle⟩ | ⟨hge, hlt⟩ := not_unmappedRegister_iff.mp h
  · exact exists_registerValue_of_le hlow
  · rw [← Nat.add_sub_cancel' hge]
    exact ⟨_, .lut ⟨reg.toNat - 0x10, by omega⟩⟩
  · rw [← Nat.add_sub_cancel' hge]
    exact ⟨_, .code ⟨reg.toNat - 0x40, by omega⟩⟩
  · rw [← Nat.add_sub_cancel' hge]
    exact ⟨_, .order (reg.toNat - 0x80000000) (by omega)⟩

/-! ### READ_REG, one equation per answer -/

theorem exec_readReg_of_some (h : s.readRegister reg = some v) : exec (.readReg reg) s = s.answer [v] := by
  simp only [exec, execReadReg, h]

theorem exec_readReg_of_none (h : s.readRegister reg = none) : exec (.readReg reg) s = s.fail .errParam := by
  simp only [exec, execReadReg, h]

end Sys2Proof.Machine

open Sys2Proof Sys2Proof.Machine

/-- Settles O11: the packet is the encoder's (O1), and NOP has no check. -/
theorem nopAnswersOk : Obligations.NopAnswersOk :=
  ⟨fun n m ws => decodeOfEncode n m .nop ws rfl, fun _ => rfl⟩

/-- Settles O12: the packet is the encoder's (O1), and SOFT_RESET has no check. -/
theorem softResetGivesResetState : Obligations.SoftResetGivesResetState :=
  ⟨fun n m ws => decodeOfEncode n m .softReset ws rfl, fun _ => rfl⟩

/-- Settles O13: the packet is the encoder's (O1), and the register map answers every row and no gap. -/
theorem readRegReadsTheTable : Obligations.ReadRegReadsTheTable :=
  ⟨fun n m reg ws => decodeOfEncode n m (.readReg reg) ws rfl,
    fun _ _ _ hp => ⟨fun hrow => exec_readReg_of_some (hrow.readRegister_eq hp),
      fun hgap => exec_readReg_of_none hgap.readRegister_eq⟩⟩

/-- Settles O14: a number outside R242's gaps is a row (`exists_registerValue`), and what READ_REG answers is O13. -/
theorem registerMapIsTotal : Obligations.RegisterMapIsTotal := by
  unfold Obligations.RegisterMapIsTotal
  intro s reg hp
  obtain ⟨-, hread⟩ := readRegReadsTheTable
  refine ⟨⟨?answered, ?mapped⟩, fun hmapped => ?_, (hread s reg 0 hp).2⟩
  case answered =>
    rintro ⟨v, hv⟩ hgap
    exact nomatch hgap.readRegister_eq.symm.trans hv
  case mapped =>
    intro hmapped
    obtain ⟨v, hrow⟩ := exists_registerValue hmapped
    exact ⟨v, hrow.readRegister_eq hp⟩
  · obtain ⟨v, hrow⟩ := exists_registerValue hmapped
    exact ⟨v, hrow, (hread s reg v hp).1 hrow⟩

end

section
/-! PROOFS. Progress, failures and the two agents' shares (spec 60_exceptions.md R256, R258, R267). The idea: a packet the
decoder accepts is framed, and a framed command fails with a status word alone or has one of the effects `Performs`; a
tick stops only where R42 does not hold, and a presenting tick has the frame `presentingTick_frame`. -/

namespace Sys2Proof.Machine

/-! ### Every turn ends in a next state -/

/-- A framed command completes: it fails with a status word, or it answers OK (R96, R256). -/
theorem exists_exec_next {i : Instr} {s : State} (hw : i.wf s.n.toNat s.m.toNat = true) :
    ∃ t, exec i s = .next t := by
  obtain ⟨st, -, he⟩ | ⟨t, data, -, he⟩ := exec_cases i s hw
  · exact ⟨_, he⟩
  · exact ⟨_, he⟩

/-- The command agent's turn never stops, from any state: what the decoder makes a command of is framed (R94, R95). -/
theorem exists_commandTurn_next (s : State) : ∃ t, commandTurn s = .next t := by
  cases hd : decode s.n.toNat s.m.toNat s.cmd with
  | incomplete => exact ⟨_, commandTurn_of_incomplete hd⟩
  | illegal why rest => exact ⟨_, commandTurn_of_illegal hd⟩
  | packet i rest =>
    obtain ⟨-, hw⟩ := decode_packet_parts hd
    rw [commandTurn_of_packet hd]
    exact exists_exec_next (s := s.consumed rest) hw

/-- R42(b) and R42(h) rule out both of a tick's faults (R258; entry 7). -/
theorem State.R42.exists_displayTick_next {s : State} (h : s.R42) : ∃ t, displayTick s = .next t := by
  cases hrun : s.loopRun with
  | false => exact ⟨_, displayTick_of_stopped hrun⟩
  | true =>
    obtain ⟨hcap, -, -⟩ := h.loop hrun
    exact ⟨_, displayTick_of_running hrun h.mode_toNat_le hcap⟩

theorem step_of_rst {s : State} {es : List Event} (he : s.events = .rst :: es) :
    step s = .next (State.hardwareReset { s with events := es }) := by
  simp only [step, performEvent, he]

/-! ### The one response of a performed command -/

/-- One response after what `s` had sent: its status word and its data words can be read off (R96). -/
theorem State.respond_rsp_inj {s u : State} {st : Status} {sent data : List Word} {status : Word}
    (hu : u.rsp = s.rsp) (h : (u.respond st sent).rsp = s.rsp ++ status :: data) : st.word = status ∧ sent = data := by
  rw [State.respond_rsp, hu] at h
  exact List.cons_eq_cons.mp (List.append_cancel_left h)

/-! ### The command agent's share of the playback state (R267) -/

section CommandShare

variable {i : Instr} {s t : State} {data : List Word} (hp : Performs i s t data) (hr : i ≠ .softReset)
include hp hr

/-- No effect but SOFT_RESET's writes a register that the tick agent alone writes. -/
theorem Performs.tickRegisters_eq :
    t.mode = s.mode ∧ t.ci = s.ci ∧ t.bi = s.bi ∧ t.trig = s.trig ∧ t.dispSlot = s.dispSlot := by
  cases hp
  case softReset => exact absurd rfl hr
  all_goals exact ⟨rfl, rfl, rfl, rfl, rfl⟩

/-- No effect but SOFT_RESET's writes an output of the event. -/
theorem Performs.outputs_eq : t.playPulse = s.playPulse ∧ t.stopPulse = s.stopPulse ∧ t.present = s.present := by
  cases hp
  case softReset => exact absurd rfl hr
  all_goals exact ⟨rfl, rfl, rfl⟩

/-- The registers of a sequence are START_SEQ's to write (R206). -/
theorem Performs.sequence_eq (hi : ∀ n, i ≠ .startSeq n) :
    t.fis = s.fis ∧ t.fr = s.fr ∧ t.sa = s.sa ∧ t.ffh = s.ffh := by
  cases hp
  case softReset => exact absurd rfl hr
  case startSeq => exact absurd rfl (hi _)
  all_goals exact ⟨rfl, rfl, rfl, rfl⟩

end CommandShare

end Sys2Proof.Machine

open Sys2Proof Sys2Proof.Machine

/-- Settles O54: by the event it takes, a step is a command turn, a display tick or a reset, and each ends in a next
state. -/
theorem stepNeverStops : Obligations.StepNeverStops := by
  unfold Obligations.StepNeverStops SafeStep
  intro s h
  match he : s.events with
  | [] => exact step_of_no_event he ▸ exists_commandTurn_next s
  | .command arrived :: es => exact step_of_command he ▸ exists_commandTurn_next _
  | .tick :: es => exact step_of_tick he ▸ (r42_keptByEvents.environment es s.cmd h).exists_displayTick_next
  | .rst :: es => exact ⟨_, step_of_rst he⟩

/-- Settles O55: a failure sends its status word alone and changes nothing else; the response of an effect begins with
OK's word, which is 0. -/
theorem failedCommandChangesNothing : Obligations.FailedCommandChangesNothing := by
  unfold Obligations.FailedCommandChangesNothing
  intro i s t status data h hrsp hne
  obtain ⟨st, rfl⟩ | ⟨u, sent, hp, rfl⟩ := exec_next h
  · obtain ⟨rfl, rfl⟩ := State.respond_rsp_inj rfl hrsp
    exact ⟨rfl, rfl⟩
  · obtain ⟨rfl, -⟩ := State.respond_rsp_inj hp.rsp_eq hrsp
    exact absurd ((Status.word_eq_zero_iff .ok).mpr rfl) hne

/-- Settles O59: an ignored tick clears the outputs and a presenting one has the frame `presentingTick_frame`; a failure
sends its status word, and an effect keeps the tick agent's registers, the outputs and, but for START_SEQ, the sequence's
registers. -/
theorem agentsWriteTheirOwnState : Obligations.AgentsWriteTheirOwnState := by
  unfold Obligations.AgentsWriteTheirOwnState
  refine ⟨fun s t h => ?tick, fun i s t h hr => ?command⟩
  case tick =>
    obtain ⟨-, rfl⟩ | ⟨-, -, -, rfl⟩ := displayTick_next h
    · rfl
    · exact presentingTick_frame s
  case command =>
    obtain ⟨st, rfl⟩ | ⟨u, data, hp, rfl⟩ := exec_next h
    · exact ⟨rfl, rfl, rfl, rfl, rfl, rfl, rfl, rfl, fun _ => ⟨rfl, rfl, rfl, rfl⟩⟩
    · obtain ⟨hmode, hci, hbi, htrig, hslot⟩ := hp.tickRegisters_eq hr
      obtain ⟨hplay, hstop, hpresent⟩ := hp.outputs_eq hr
      exact ⟨hmode, hci, hbi, htrig, hslot, hplay, hstop, hpresent, hp.sequence_eq hr⟩

end

section
/-! PROOFS. The hardware reset input (spec 70_reset_and_hazards.md R280). The idea: `State.hardwareReset` is the reset
state of the same hardware whose received words are already none, so of the streams only the responses sent and the further
events are carried over (entry 3). -/

namespace Sys2Proof.Machine

/-- The whole state the reset input leaves: R51's table, no received word, the responses and the events as they were. -/
theorem State.hardwareReset_eq_resetWith (s : State) :
    s.hardwareReset = { State.resetWith s.params with rsp := s.rsp, events := s.events } := rfl

end Sys2Proof.Machine

open Sys2Proof Sys2Proof.Machine

/-- Settles O9: the step is the reset of the state without its first event (`step_rst`), and that reset is the reset state
up to the responses and the events. -/
theorem hardwareResetGivesResetState : Obligations.HardwareResetGivesResetState := by
  unfold Obligations.HardwareResetGivesResetState
  intro s es hrst
  calc step s
      = .next (State.hardwareReset { s with events := es }) := step_rst hrst
    _ = .next { State.resetWith s.params with rsp := s.rsp, events := es } := by
        rw [State.hardwareReset_eq_resetWith]

end
